-- ==== Sys2Proof/Word.lean ====
section
/-! DEFINITION. The word types of the Exlum (spec/00 R4, spec/02 R22): bytes, 32-bit registers, 64-bit
pairs, and lane masks. Nothing here computes more than a width. -/

namespace Sys2Proof

/-- One byte of storage. -/
abbrev Byte := BitVec 8

/-- A 32-bit register of the hold, near or uniform level (R22), and one word of an instruction (R47). -/
abbrev Word := BitVec 32

/-- A 64-bit value: a pair of registers (R23), a latch, an address, a dword of a record. -/
abbrev Dword := BitVec 64

/-- One bit per lane 0..31 (R18). -/
abbrev Mask := BitVec 32

end Sys2Proof
end

