-- ==== Sys2Proof/Syntax.lean ====
section
/-! DEFINITION. The instruction set as syntax: one constructor of `Instr` for every row of
spec/opcode_table.json. Instructions carry decoded operands (spec/03 R50-R57), compact forms carry
their OS8 operands (R67-R70), and the part's events carry what the event names. The order of the
constructors is the table's order. -/

namespace Sys2Proof

/-- The guard of a 64-bit form (R50, R51): negate bit and predicate index; index 7 is `p7`, always true. -/
structure Guard where
  neg : Bool
  idx : BitVec 3
deriving DecidableEq, Repr

/-- What every 64-bit or 96-bit form has beside its operands (R50): the guard, whether it is the 96-bit
form, and its literal word (0 in a 64-bit form). -/
structure Hdr where
  guard : Guard
  long  : Bool
  lit   : Word
deriving DecidableEq, Repr

/-- The special values of R28. -/
inductive Special where
  | z | lane | wslot | nthr | smask | live | quad | core | clk | f1
deriving DecidableEq, Repr

/-- A source operand, OS10 (R53): a hold, near or latch register, a special value, a uniform register,
an immediate of 8 bits, or the literal word. Latch `k1` has index 0. -/
inductive Opd where
  | hold (i : BitVec 8)
  | near (i : BitVec 4)
  | latch (i : BitVec 2)
  | special (v : Special)
  | uniform (i : BitVec 6)
  | imm (v : BitVec 8)
  | lit
deriving DecidableEq, Repr

/-- A register an instruction can name as a destination (R55). -/
inductive DReg where
  | hold (i : BitVec 8)
  | near (i : BitVec 4)
  | uniform (i : BitVec 6)
deriving DecidableEq, Repr

/-- A destination (R52): `_`, which has `nw` set, or a register with its `nw` bit. -/
inductive Dst where
  | none
  | reg (r : DReg) (nw : Bool)
deriving DecidableEq, Repr

/-- A source operand of a compact form, OS8 (R68). -/
inductive Opd8 where
  | hold (i : BitVec 6)
  | near (i : BitVec 4)
  | latch (i : BitVec 2)
  | special (v : Special)
  | uniform (i : BitVec 5)
  | imm (v : BitVec 7)
deriving DecidableEq, Repr

/-- A destination of a compact form, OS8 (R68). -/
inductive Dst8 where
  | none
  | hold (i : BitVec 6)
  | near (i : BitVec 4)
  | uniform (i : BitVec 5)
deriving DecidableEq, Repr

/-- Integer width (R62). -/
inductive Width where
  | w32 | w64
deriving DecidableEq, Repr

/-- Rounding mode (R76): nearest even, toward zero, down, up. -/
inductive Rnd where
  | rne | rtz | rdn | rup
deriving DecidableEq, Repr

/-- Format of a packed half instruction (R62). -/
inductive Half where
  | f16 | bf16
deriving DecidableEq, Repr

/-- Conditions of `CMP` (R63). -/
inductive CmpCond where
  | eq | ne | lt | le | gt | ge | ltn | len | gtn | gen | tst | tstz
deriving DecidableEq, Repr

/-- Conditions of `FCMP` (R64). -/
inductive FCmpCond where
  | eq | ne | lt | le | gt | ge | num | nan | neu | ltu | leu | gtu | geu | equ
deriving DecidableEq, Repr

/-- Operand format of `FCMP` (R62). -/
inductive CmpFmt where
  | f32 | f16 | bf16
deriving DecidableEq, Repr

/-- How a comparison is combined with a predicate (R108). -/
inductive Combine where
  | none
  | and (qneg : Bool) (q : BitVec 3)
  | or (qneg : Bool) (q : BitVec 3)
  | xor (qneg : Bool) (q : BitVec 3)
deriving DecidableEq, Repr

/-- Format pairs of `CVT`, destination first (R65). -/
inductive CvtPair where
  | f32f16 | f32bf16 | f16f32 | bf16f32 | f16bf16 | bf16f16 | f32e4m3 | f32e5m2 | e4m3f32 | e5m2f32
  | f32i32 | f32n32 | i32f32 | n32f32 | f32i64 | f32n64 | i64f32 | n64f32 | i8f32 | n8f32 | i16f32 | n16f32
deriving DecidableEq, Repr

/-- Modes of `SHFL` (R148). -/
inductive ShflMode where
  | idx | up | down | xor
deriving DecidableEq, Repr

/-- Operations of `REDX` and `SCANX` (R153). -/
inductive RedOp where
  | add | min | max | minn | maxn | and | or | xor | fadd | fmin | fmax
deriving DecidableEq, Repr

/-- Width selector of a load (R184). -/
inductive MemSz where
  | n8 | i8 | n16 | i16 | w32 | w64
deriving DecidableEq, Repr

/-- Width selector of a store (R184). -/
inductive StSz where
  | b8 | b16 | w32 | w64
deriving DecidableEq, Repr

/-- Scopes (R185, R364). -/
inductive Scope where
  | warp | grp | core | tract | die | pkg | sys
deriving DecidableEq, Repr

/-- The ordering option of a load or store (R185): plain, or acquire/release at a scope. -/
inductive Ord where
  | plain
  | sync (s : Scope)
deriving DecidableEq, Repr

/-- Operations of ATOMIC (R61, R196). -/
inductive AtomOp where
  | add | min | max | minn | maxn | and | or | xor | xchg | cas | fadd
deriving DecidableEq, Repr

/-- Ordering of ATOMIC (R195). -/
inductive AtomOrd where
  | rlx | acq | rel | ar
deriving DecidableEq, Repr

/-- Kinds of `FENCE` (R199). -/
inductive FenceKind where
  | ar | acq | rel
deriving DecidableEq, Repr

/-- Format pairs of MATRIX (R66). -/
inductive MatPair where
  | rq8 | rq4 | e4e4 | e4e5 | e5e4 | e5e5 | bf16 | f16 | f32
deriving DecidableEq, Repr

/-- Tile sizes M and N (R62, R66). -/
inductive Dim where
  | d32 | d64 | d128
deriving DecidableEq, Repr

/-- The gang of a matrix or spot instruction (R247, R275), with its group membership slot. -/
inductive Gang where
  | quad
  | core (memb : BitVec 2)
  | tract (memb : BitVec 2)
deriving DecidableEq, Repr

/-- Element formats of the tensor table (R237). -/
inductive Fmt where
  | rq8 | rq4 | e4m3 | e5m2 | bf16 | f16 | f32 | i32 | n8
deriving DecidableEq, Repr

/-- Batch sizes of `SPOT` (R275). -/
inductive Batch where
  | b8 | b16 | b32 | b64
deriving DecidableEq, Repr

/-- The parameter group of `SPOT` (R275): `h`(4m) or `w`(4m). -/
inductive SpotGroup where
  | hold (m : BitVec 6)
  | uniform (m : BitVec 4)
deriving DecidableEq, Repr

/-- The destination group of `SSTAT` (R282): `h`(4m), `n`(4m) or `w`(4m). -/
inductive StatGroup where
  | hold (m : BitVec 6)
  | near (m : BitVec 2)
  | uniform (m : BitVec 4)
deriving DecidableEq, Repr

/-- The special registers of `SRR` and `SRW`, numbers 0..20 (R226). -/
inductive SReg where
  | laneid | warpslot | quad | core | tract | die | groups | launch | parcel | strandpc | cspbase | cspdepth
  | clock | retired | caphbm | capcxl | platphase | spotcnt | spotvar | spotnrm | faultseq
deriving DecidableEq, Repr

/-- Where a launch record comes from (R329 check 2): the kick page or host queue of a device, or an
Ethernet port with the frame's source address and binding tag (R436). -/
inductive Source where
  | queue (vdev : Nat)
  | ether (port : Nat) (mac : BitVec 48) (tag : BitVec 16)
deriving DecidableEq, Repr

/-- A front-end register that Larkar writes and that has no row of its own (R413, R429, R436): dword `i` of
the debug block, dword `k` of remote window `j`, the Ethernet binding, a Fythes port's peer, the device
whose issue rights the policy core grants. -/
inductive FeReg where
  | debug (i : Nat)
  | window (j k : Nat)
  | etherPort | etherMac | etherTag
  | portPeer (port : Nat)
deriving DecidableEq, Repr

/-- A debugger's edit of a halted warp's saved state (R417). -/
inductive Edit where
  | hold (lane reg : Nat) (v : Word)
  | uniform (reg : Nat) (v : Word)
  | pred (lane idx : Nat) (v : Bool)
  | mask (idx : Nat) (v : Word)
  | pc (lane : Nat) (v : Dword)
  /-- The 128 bytes of a thread's area (R333): PCs, predicates, return stack and trap state. -/
  | area (lane : Nat) (bytes : List Byte)
  /-- Of the warp's parcel: a scratchpad byte, by the parcel's core and the offset in its bank set. -/
  | scratch (core off : Nat) (v : Byte)
  /-- A tag entry, by the parcel's core and the entry's number there. Its fields are `HW`: the write leaves them unchanged (R8, R201). -/
  | tag (core k : Nat) (v : Dword)
  /-- An accumulator, by local quadrant: element k (field 0), residue container k (1), `L` with its shape (2), each as the image holds
  it (R352). `SPOTCNT` (3), `SPOTVAR` (4) and `SPOTNRM` (5) are `HW`: the write leaves them unchanged (R8, R281). -/
  | acc (quad field k : Nat) (v : Dword)
  /-- The warp's job counter, the `JOBS` of its record (R308, R332). -/
  | jobs (v : Word)
  /-- The lanes with a `TRIG` mark (R305, R350). -/
  | trig (lanes : Word)
deriving DecidableEq, Repr

/-- What a peer asks of this package through one of its windows (R430). -/
inductive RemoteKind where
  | load | store
  | atom (op : AtomOp) (w : Width)
deriving DecidableEq, Repr

/-- A boot image offered at reset (R438): its bytes and the two signatures over it. -/
structure BootImage where
  image : List Byte
  malxelSig : List Byte
  ownerSig : List Byte
deriving DecidableEq, Repr

/-- Every row of spec/opcode_table.json. -/
inductive Instr where
  /-- `ADD` (R101). Wrapping integer add of two sources per lane. -/
  | add (h : Hdr) (w : Width) (d : Dst) (a b : Opd)
  /-- `SUB` (R101). Wrapping integer subtract per lane. -/
  | sub (h : Hdr) (w : Width) (d : Dst) (a b : Opd)
  /-- `MUL` (R101). Low half of the integer product per lane. -/
  | mul (h : Hdr) (w : Width) (d : Dst) (a b : Opd)
  /-- `MULH` (R101). High half of the signed product per lane. -/
  | mulh (h : Hdr) (w : Width) (d : Dst) (a b : Opd)
  /-- `MULHN` (R101). High half of the natural product per lane. -/
  | mulhn (h : Hdr) (w : Width) (d : Dst) (a b : Opd)
  /-- `DIV` (R102). Signed division truncated toward zero, with fixed results for zero divisor and overflow. -/
  | div (h : Hdr) (w : Width) (d : Dst) (a b : Opd)
  /-- `DIVN` (R102). Natural division with an all-ones result for a zero divisor. -/
  | divn (h : Hdr) (w : Width) (d : Dst) (a b : Opd)
  /-- `REM` (R102). Signed remainder with the sign of the dividend. -/
  | rem (h : Hdr) (w : Width) (d : Dst) (a b : Opd)
  /-- `REMN` (R102). Natural remainder; a zero divisor returns the dividend. -/
  | remn (h : Hdr) (w : Width) (d : Dst) (a b : Opd)
  /-- `MIN` (R101). Signed minimum per lane. -/
  | minS (h : Hdr) (w : Width) (d : Dst) (a b : Opd)
  /-- `MAX` (R101). Signed maximum per lane. -/
  | maxS (h : Hdr) (w : Width) (d : Dst) (a b : Opd)
  /-- `MINN` (R101). Natural minimum per lane. -/
  | minn (h : Hdr) (w : Width) (d : Dst) (a b : Opd)
  /-- `MAXN` (R101). Natural maximum per lane. -/
  | maxn (h : Hdr) (w : Width) (d : Dst) (a b : Opd)
  /-- `AND` (R101). Bitwise AND per lane. -/
  | andB (h : Hdr) (w : Width) (d : Dst) (a b : Opd)
  /-- `OR` (R101). Bitwise OR per lane. -/
  | orB (h : Hdr) (w : Width) (d : Dst) (a b : Opd)
  /-- `XOR` (R101). Bitwise XOR per lane. -/
  | xorB (h : Hdr) (w : Width) (d : Dst) (a b : Opd)
  /-- `ANDN` (R101). a AND NOT b per lane. -/
  | andn (h : Hdr) (w : Width) (d : Dst) (a b : Opd)
  /-- `ORN` (R101). a OR NOT b per lane. -/
  | orn (h : Hdr) (w : Width) (d : Dst) (a b : Opd)
  /-- `SHL` (R103). Shift left by a count taken modulo the width. -/
  | shl (h : Hdr) (w : Width) (d : Dst) (a b : Opd)
  /-- `SHR` (R103). Logical shift right by a count modulo the width. -/
  | shr (h : Hdr) (w : Width) (d : Dst) (a b : Opd)
  /-- `SAR` (R103). Arithmetic shift right by a count modulo the width. -/
  | sar (h : Hdr) (w : Width) (d : Dst) (a b : Opd)
  /-- `ROL` (R103). Rotate left by a count modulo the width. -/
  | rol (h : Hdr) (w : Width) (d : Dst) (a b : Opd)
  /-- `ROR` (R103). Rotate right by a count modulo the width. -/
  | ror (h : Hdr) (w : Width) (d : Dst) (a b : Opd)
  /-- `MAD` (R104). Low word of a times b plus c. -/
  | mad (h : Hdr) (w : Width) (d : Dst) (a b c : Opd)
  /-- `MADH` (R104). High word of the exact natural a times b plus c. -/
  | madh (h : Hdr) (w : Width) (d : Dst) (a b c : Opd)
  /-- `LEA` (R104). Adds b scaled by a power of two to a base. -/
  | lea (h : Hdr) (w : Width) (d : Dst) (a b c : Opd)
  /-- `BFX` (R105). Extracts a bit field, optionally sign-extended. -/
  | bfx (h : Hdr) (w : Width) (d : Dst) (a b : Opd)
  /-- `BFI` (R105). Inserts a bit field of a into b. -/
  | bfi (h : Hdr) (w : Width) (d : Dst) (a b c : Opd)
  /-- `SEL` (R106). Selects a or b per lane by a predicate. -/
  | sel (h : Hdr) (w : Width) (d : Dst) (a b : Opd) (p : BitVec 3)
  /-- `ADD3` (R104). Wrapping sum of three sources. -/
  | add3 (h : Hdr) (w : Width) (d : Dst) (a b c : Opd)
  /-- `MOV` (R107). Copies a source or literal to the destination. -/
  | mov (h : Hdr) (w : Width) (d : Dst) (a : Opd)
  /-- `NEG` (R107). Wrapping integer negation. -/
  | neg (h : Hdr) (w : Width) (d : Dst) (a : Opd)
  /-- `ABS` (R107). Integer absolute value with wrap of the minimum. -/
  | abs (h : Hdr) (w : Width) (d : Dst) (a : Opd)
  /-- `NOT` (R107). Bitwise complement. -/
  | notB (h : Hdr) (w : Width) (d : Dst) (a : Opd)
  /-- `POPC` (R107). Counts one bits. -/
  | popc (h : Hdr) (w : Width) (d : Dst) (a : Opd)
  /-- `CLZ` (R107). Counts leading zero bits. -/
  | clz (h : Hdr) (w : Width) (d : Dst) (a : Opd)
  /-- `CTZ` (R107). Counts trailing zero bits. -/
  | ctz (h : Hdr) (w : Width) (d : Dst) (a : Opd)
  /-- `BREV` (R107). Reverses the bit order. -/
  | brev (h : Hdr) (w : Width) (d : Dst) (a : Opd)
  /-- `SEXT8` (R107). Sign-extends the low byte. -/
  | sext8 (h : Hdr) (w : Width) (d : Dst) (a : Opd)
  /-- `SEXT16` (R107). Sign-extends the low half-word. -/
  | sext16 (h : Hdr) (w : Width) (d : Dst) (a : Opd)
  /-- `ZEXT8` (R107). Zero-extends the low byte. -/
  | zext8 (h : Hdr) (w : Width) (d : Dst) (a : Opd)
  /-- `ZEXT16` (R107). Zero-extends the low half-word. -/
  | zext16 (h : Hdr) (w : Width) (d : Dst) (a : Opd)
  /-- `CMP` (R109). Integer compare writing and optionally combining a predicate. -/
  | cmp (h : Hdr) (cond : CmpCond) (w : Width) (pd : BitVec 3) (cb : Combine) (a b : Opd)
  /-- `FADD` (R110). FP32 add rounded once under the mode. -/
  | fadd (h : Hdr) (rm : Rnd) (d : Dst) (a b : Opd)
  /-- `FSUB` (R110). FP32 subtract rounded once. -/
  | fsub (h : Hdr) (rm : Rnd) (d : Dst) (a b : Opd)
  /-- `FMUL` (R110). FP32 multiply rounded once. -/
  | fmul (h : Hdr) (rm : Rnd) (d : Dst) (a b : Opd)
  /-- `FMIN` (R112). Number-preferring FP32 minimum. -/
  | fmin (h : Hdr) (d : Dst) (a b : Opd)
  /-- `FMAX` (R112). Number-preferring FP32 maximum. -/
  | fmax (h : Hdr) (d : Dst) (a b : Opd)
  /-- `FMINP` (R112). NaN-propagating FP32 minimum. -/
  | fminp (h : Hdr) (d : Dst) (a b : Opd)
  /-- `FMAXP` (R112). NaN-propagating FP32 maximum. -/
  | fmaxp (h : Hdr) (d : Dst) (a b : Opd)
  /-- `FSCALE` (R111). Multiplies by a power of two given as an integer. -/
  | fscale (h : Hdr) (rm : Rnd) (d : Dst) (a b : Opd)
  /-- `HADD2` (R113). Packed half-pair add. -/
  | hadd2 (h : Hdr) (hf : Half) (rm : Rnd) (d : Dst) (a b : Opd)
  /-- `HSUB2` (R113). Packed half-pair subtract. -/
  | hsub2 (h : Hdr) (hf : Half) (rm : Rnd) (d : Dst) (a b : Opd)
  /-- `HMUL2` (R113). Packed half-pair multiply. -/
  | hmul2 (h : Hdr) (hf : Half) (rm : Rnd) (d : Dst) (a b : Opd)
  /-- `HMIN2` (R113). Packed half-pair number-preferring minimum. -/
  | hmin2 (h : Hdr) (hf : Half) (d : Dst) (a b : Opd)
  /-- `HMAX2` (R113). Packed half-pair number-preferring maximum. -/
  | hmax2 (h : Hdr) (hf : Half) (d : Dst) (a b : Opd)
  /-- `FFMA` (R114). Fused a times b plus c. -/
  | ffma (h : Hdr) (rm : Rnd) (d : Dst) (a b c : Opd)
  /-- `FFMS` (R114). Fused a times b minus c. -/
  | ffms (h : Hdr) (rm : Rnd) (d : Dst) (a b c : Opd)
  /-- `FNMA` (R114). Fused minus a times b plus c. -/
  | fnma (h : Hdr) (rm : Rnd) (d : Dst) (a b c : Opd)
  /-- `HFMA2` (R114). Packed half-pair fused multiply-add. -/
  | hfma2 (h : Hdr) (hf : Half) (rm : Rnd) (d : Dst) (a b c : Opd)
  /-- `FABS` (R115). Clears the FP32 sign bit. -/
  | fabs (h : Hdr) (d : Dst) (a : Opd)
  /-- `FNEG` (R115). Inverts the FP32 sign bit. -/
  | fneg (h : Hdr) (d : Dst) (a : Opd)
  /-- `FRND` (R115). Rounds to an integral FP32 value in a direction. -/
  | frnd (h : Hdr) (rm : Rnd) (d : Dst) (a : Opd)
  /-- `FCLASS` (R116). Writes a one-hot class of an FP32 code. -/
  | fclass (h : Hdr) (d : Dst) (a : Opd)
  /-- `FSAT` (R115). Clamps an FP32 value to 0.0..1.0. -/
  | fsat (h : Hdr) (d : Dst) (a : Opd)
  /-- `FCMP` (R109). Floating-point compare writing and combining a predicate. -/
  | fcmp (h : Hdr) (cond : FCmpCond) (f : CmpFmt) (pd : BitVec 3) (cb : Combine) (a b : Opd)
  /-- `CVT` (R117). Converts between the format pairs of the table. -/
  | cvt (h : Hdr) (p : CvtPair) (rm : Rnd) (d : Dst) (a : Opd)
  /-- `RCP` (R119). Long-latency correctly rounded reciprocal. -/
  | rcp (h : Hdr) (d : Dst) (a : Opd)
  /-- `RSQ` (R119). Long-latency correctly rounded reciprocal square root. -/
  | rsq (h : Hdr) (d : Dst) (a : Opd)
  /-- `SQRT` (R119). Long-latency correctly rounded square root. -/
  | sqrt (h : Hdr) (d : Dst) (a : Opd)
  /-- `EXP2` (R119). Long-latency correctly rounded power of two. -/
  | exp2 (h : Hdr) (d : Dst) (a : Opd)
  /-- `LOG2` (R119). Long-latency correctly rounded base-2 logarithm. -/
  | log2 (h : Hdr) (d : Dst) (a : Opd)
  /-- `SINPI` (R119). Long-latency correctly rounded sin(pi a). -/
  | sinpi (h : Hdr) (d : Dst) (a : Opd)
  /-- `COSPI` (R119). Long-latency correctly rounded cos(pi a). -/
  | cospi (h : Hdr) (d : Dst) (a : Opd)
  /-- `TANH` (R119). Long-latency correctly rounded tanh. -/
  | tanh (h : Hdr) (d : Dst) (a : Opd)
  /-- `SIGM` (R119). Long-latency correctly rounded logistic sigmoid. -/
  | sigm (h : Hdr) (d : Dst) (a : Opd)
  /-- `DIVF` (R119). Long-latency correctly rounded FP32 division. -/
  | divf (h : Hdr) (d : Dst) (a b : Opd)
  /-- `BRA` (R126). Per-lane relative branch; lanes may split into sets. -/
  | bra (h : Hdr) (off : Word)
  /-- `BRX` (R124). Per-lane indirect jump with target checks. -/
  | brx (h : Hdr) (a : Opd)
  /-- `CALL` (R133). Pushes the return address, spilling two entries when full, and jumps; seals. -/
  | call (h : Hdr) (off : Word)
  /-- `CALLX` (R133). Indirect call with return-stack push; seals. -/
  | callx (h : Hdr) (a : Opd)
  /-- `RET` (R134). Pops a return address, refilling from the spill area when needed; seals. -/
  | ret (h : Hdr)
  /-- `EXIT` (R127). Ends each guard-true thread for good. -/
  | exit (h : Hdr)
  /-- `TRAP` (R128). Stops guard-true threads with SOFTWARE_TRAP and an argument. -/
  | trap (h : Hdr) (a : Opd)
  /-- `BRK` (R128). Stops guard-true threads with BREAKPOINT. -/
  | brk (h : Hdr)
  /-- `JSET` (R137). Sets a rejoin mask to the guard-true lanes. -/
  | jset (h : Hdr) (j : BitVec 4)
  /-- `JADD` (R137). ORs the guard-true lanes into a rejoin mask. -/
  | jadd (h : Hdr) (j : BitVec 4)
  /-- `JCLR` (R137). Clears the guard-true lanes from a rejoin mask. -/
  | jclr (h : Hdr) (j : BitVec 4)
  /-- `WAITJ` (R139). Blocks until every named non-exited thread waits on the mask. -/
  | waitj (h : Hdr) (j : BitVec 4)
  /-- `ELECT` (R142). Sets a predicate in the lowest guard-true lane only. -/
  | elect (h : Hdr) (p : BitVec 3)
  /-- `SLEEPJ` (R140). Blocks each thread while its mask bit is set. -/
  | sleepj (h : Hdr) (j : BitVec 4)
  /-- `WAKEJ` (R137). Clears a rejoin mask, releasing sleepers; seals. -/
  | wakej (h : Hdr) (j : BitVec 4)
  /-- `STRAND` (R36). Opens a strand: declares survivors, sets the restart PC, clears latches and near bits. -/
  | strand (win : BitVec 2) (mask : BitVec 64)
  /-- `SHFL` (R148). Moves a value between lanes by index, up, down or xor. -/
  | shfl (h : Hdr) (mode : ShflMode) (w : Width) (d : Dst) (a b : Opd)
  /-- `LPUSH` (R150). Pushes values to target lanes of the same warp. -/
  | lpush (h : Hdr) (d : Dst) (a b : Opd) (pc : Option (BitVec 3))
  /-- `LPUSH_WARP` (R151). Pushes values into another warp's lanes once they stand at boundaries; seals. -/
  | lpushWarp (h : Hdr) (d : Dst) (a b slot : Opd)
  /-- `VOTE_ANY` (R152). Predicate true in all lanes when any lane's predicate is true. -/
  | voteAny (h : Hdr) (pd : BitVec 3) (inv : Bool) (q : BitVec 3)
  /-- `VOTE_ALL` (R152). Predicate true when every lane's predicate is true. -/
  | voteAll (h : Hdr) (pd : BitVec 3) (inv : Bool) (q : BitVec 3)
  /-- `VOTE_BALLOT` (R152). Writes the lane mask of true predicates. -/
  | voteBallot (h : Hdr) (d : Dst) (inv : Bool) (q : BitVec 3)
  /-- `VOTE_EQ` (R152). Predicate true when a value is equal in all lanes. -/
  | voteEq (h : Hdr) (pd : BitVec 3) (a : Opd)
  /-- `REDX` (R154). Reduces a value over the set into every lane. -/
  | redx (h : Hdr) (op : RedOp) (w : Width) (d : Dst) (a : Opd)
  /-- `SCANX` (R155). Inclusive or exclusive prefix over the set. -/
  | scanx (h : Hdr) (ex : Bool) (op : RedOp) (w : Width) (d : Dst) (a : Opd)
  /-- `MATCH` (R156). Writes the mask of lanes holding an equal value. -/
  | matchx (h : Hdr) (w : Width) (d : Dst) (a : Opd)
  /-- `LD` (R186). Long-latency load through a buffer record with bounds, translation and coalescing. -/
  | ld (h : Hdr) (sz : MemSz) (o : Ord) (d : Dst) (r : BitVec 4) (b : Opd)
  /-- `ST` (R186). Store through a buffer record. -/
  | st (h : Hdr) (sz : StSz) (o : Ord) (r : BitVec 4) (b c : Opd)
  /-- `LDS` (R190). Load from the own core's scratchpad. -/
  | lds (h : Hdr) (sz : MemSz) (o : Ord) (d : Dst) (a b : Opd)
  /-- `STS` (R190). Store to the own core's scratchpad. -/
  | sts (h : Hdr) (sz : StSz) (o : Ord) (a b c : Opd)
  /-- `LDX` (R191). Load from a scratchpad of any core of the tract. -/
  | ldx (h : Hdr) (sz : MemSz) (o : Ord) (core : BitVec 2) (d : Dst) (a b : Opd)
  /-- `STX` (R191). Store to a scratchpad of any core of the tract. -/
  | stx (h : Hdr) (sz : StSz) (o : Ord) (core : BitVec 2) (a b c : Opd)
  /-- `LDW` (R189). Once-per-issue load into a uniform register. -/
  | ldw (h : Hdr) (w : Width) (o : Ord) (d : Dst) (r : BitVec 4) (b : Opd)
  /-- `ATOM` (R196). Indivisible read-modify-write in device memory at the home; seals. -/
  | atom (g : Guard) (op : AtomOp) (w : Width) (o : AtomOrd) (sc : Scope) (d : Dst) (r : BitVec 4) (b c : Opd)
  /-- `ATOMS` (R196). Indivisible read-modify-write in scratchpad at the bank; seals. -/
  | atoms (g : Guard) (op : AtomOp) (w : Width) (o : AtomOrd) (sc : Scope) (d : Dst) (a b c : Opd)
  /-- `FENCE` (R200). Orders earlier and later accesses at a scope, stalling until performed. -/
  | fence (h : Hdr) (k : FenceKind) (sc : Scope)
  /-- `TAGQ` (R203). Searches the tag table for a key and returns payload and slot. -/
  | tagq (h : Hdr) (d : Dst) (a : Opd)
  /-- `TAGI` (R202). Installs a key and payload in a tag slot. -/
  | tagi (h : Hdr) (a b c : Opd)
  /-- `TAGX` (R202). Invalidates a tag slot. -/
  | tagx (h : Hdr) (a : Opd)
  /-- `CPY` (R309). Queues a copy of a row or box between device memory and scratchpad; seals. -/
  | cpy (h : Hdr) (out : Bool) (box : Option (BitVec 16 × BitVec 16)) (x : Bool) (clo : Option Opd) (a b : Opd) (r : DReg)
  /-- `GATH` (R310). Queues a gather of indexed rows into scratchpad; seals. -/
  | gath (h : Hdr) (x : Bool) (clo : Option Opd) (a b v : Opd)
  /-- `COLL` (R311). Queues a collective over the fabric; seals. -/
  | coll (h : Hdr) (x : Bool) (clo : Option Opd) (a b : Opd)
  /-- `BINIT` (R298). Initialises a closure from a descriptor; seals. -/
  | binit (h : Hdr) (x : Bool) (a b c : Opd)
  /-- `BEXP` (R299). Adds expected bytes to a closure's PEND; seals. -/
  | bexp (h : Hdr) (x : Bool) (a b c : Opd)
  /-- `BARV` (R300). Adds arrivals to a closure and applies phase completion; seals. -/
  | barv (h : Hdr) (x : Bool) (a b : Opd)
  /-- `BWAIT` (R301). Blocks threads until the closure's phase flips. -/
  | bwait (h : Hdr) (x : Bool) (a b par : Opd)
  /-- `BTEST` (R303). Writes whether a closure's phase differs from a parity. -/
  | btest (h : Hdr) (x : Bool) (pd : BitVec 3) (a b par : Opd)
  /-- `TRIG` (R305). Marks threads as triggered for early dependants; seals. -/
  | trig (h : Hdr)
  /-- `MMA` (R249). Warp-wide matrix multiply-accumulate into the accumulator. -/
  | mma (h : Hdr) (p : MatPair) (m n : Dim) (keep : Bool) (g : Gang) (a b : Opd)
  /-- `MMAG` (R251). Matrix multiply-accumulate with A rows gathered by an index vector. -/
  | mmag (h : Hdr) (p : MatPair) (m n : Dim) (keep : Bool) (g : Gang) (a b v : Opd)
  /-- `ACZ` (R258). Zeroes the working accumulator, residues and L. -/
  | acz (h : Hdr)
  /-- `ACLD` (R259). Loads a region or residues into the accumulator. -/
  | acld (h : Hdr) (rns : Option Opd) (f : Option Fmt) (a : Opd)
  /-- `ACST` (R260). Stores an accumulator region or residues to scratchpad. -/
  | acst (h : Hdr) (rns : Bool) (rm : Rnd) (f : Option Fmt) (a : Opd)
  /-- `HAD` (R261). Applies a Walsh-Hadamard transform to the accumulator. -/
  | had (h : Hdr) (col : Bool) (a b : Opd)
  /-- `QNT` (R262). Quantises an accumulator region to RQ8 or RQ4 with scales. -/
  | qnt (h : Hdr) (given isB : Bool) (f : Option Fmt) (a : Opd)
  /-- `SNORM` (R270). Writes column or row norms of a matrix. -/
  | snorm (h : Hdr) (isB : Bool) (v m : Opd)
  /-- `SALIAS` (R274). Builds an alias table from two norm vectors. -/
  | salias (g : Guard) (toff : BitVec 23) (va vb : Opd)
  /-- `SPOT` (R277). Draws sampled rank-1 terms in batches until the variance test or s_max. -/
  | spot (g : Guard) (toff : BitVec 23) (m n : Dim) (bat : Batch) (gang : Gang) (a b : Opd) (c : SpotGroup)
  /-- `SSTAT` (R282). Writes the run count, variance, norm and reason to registers. -/
  | sstat (h : Hdr) (d : StatGroup)
  /-- `SRR` (R226). Reads a special register into a pair. -/
  | srr (h : Hdr) (r : SReg) (d : Dst)
  /-- `SRW` (R227). Writes RW or WO fields of a special register; seals. -/
  | srw (h : Hdr) (r : SReg) (b : Opd)
  /-- `CEDE` (R349). In the pre-emption handler, blocks for good; the warp is saved once all have ceded. -/
  | cede (h : Hdr)
  /-- `CEDE_HOLD` (R349). Sets NOPRE; seals. -/
  | cedeHold (h : Hdr)
  /-- `CEDE_OPEN` (R349). Clears NOPRE; seals. -/
  | cedeOpen (h : Hdr)
  /-- `SAVE_HOLD` (R348). Saves a range of hold registers into the image. -/
  | saveHold (h : Hdr) (a b : Opd)
  /-- `SAVE_SCR` (R348). Saves a scratchpad range into the image. -/
  | saveScr (h : Hdr) (a b : Opd)
  /-- `SAVE_ACC` (R348). Saves the committed accumulator, L and run registers. -/
  | saveAcc (h : Hdr)
  /-- `SAVE_TAG` (R348). Saves the parcel's tag entries. -/
  | saveTag (h : Hdr)
  /-- `TRAPRET_RESTART` (R224). Leaves the handler at the saved restart PC. -/
  | trapretRestart (h : Hdr)
  /-- `TRAPRET_SKIP` (R224). Leaves the handler past the stopping instruction. -/
  | trapretSkip (h : Hdr)
  /-- `WATCH_OFF` (R416). Turns a watch slot off. -/
  | watchOff (h : Hdr) (c : Opd)
  /-- `WATCH_W` (R416). Sets a write watch range in a slot. -/
  | watchW (h : Hdr) (a b c : Opd)
  /-- `WATCH_RW` (R416). Sets a read-write watch range in a slot. -/
  | watchRw (h : Hdr) (a b c : Opd)
  /-- `PROF_STALL` (R421). Starts stall-reason sampling into a buffer. -/
  | profStall (h : Hdr) (a b c : Opd)
  /-- `PROF_STOP` (R421). Stops sampling and waits for outstanding record writes. -/
  | profStop (h : Hdr)
  /-- `PROF_MEM` (R421). Starts memory-instruction sampling into a buffer. -/
  | profMem (h : Hdr) (a b c : Opd)
  /-- `NOP` (R228). Does nothing. -/
  | nop (h : Hdr)
  /-- `THSET` (R242). Installs a tensor table entry from a descriptor and returns a handle; seals. -/
  | thset (h : Hdr) (d : Dst) (a b : Opd)
  /-- `THDROP` (R243). Invalidates a live handle's table entry. -/
  | thdrop (h : Hdr) (a : Opd)
  /-- `ADD_C` (R69). Compact 32-bit ADD. -/
  | addC (d : Dst8) (a b : Opd8)
  /-- `SUB_C` (R69). Compact 32-bit SUB. -/
  | subC (d : Dst8) (a b : Opd8)
  /-- `MUL_C` (R69). Compact MUL. -/
  | mulC (d : Dst8) (a b : Opd8)
  /-- `MULH_C` (R69). Compact MULH. -/
  | mulhC (d : Dst8) (a b : Opd8)
  /-- `MULHN_C` (R69). Compact MULHN. -/
  | mulhnC (d : Dst8) (a b : Opd8)
  /-- `MIN_C` (R69). Compact MIN. -/
  | minC (d : Dst8) (a b : Opd8)
  /-- `MAX_C` (R69). Compact MAX. -/
  | maxC (d : Dst8) (a b : Opd8)
  /-- `MINN_C` (R69). Compact MINN. -/
  | minnC (d : Dst8) (a b : Opd8)
  /-- `MAXN_C` (R69). Compact MAXN. -/
  | maxnC (d : Dst8) (a b : Opd8)
  /-- `AND_C` (R69). Compact AND. -/
  | andC (d : Dst8) (a b : Opd8)
  /-- `OR_C` (R69). Compact OR. -/
  | orC (d : Dst8) (a b : Opd8)
  /-- `XOR_C` (R69). Compact XOR. -/
  | xorC (d : Dst8) (a b : Opd8)
  /-- `ANDN_C` (R69). Compact ANDN. -/
  | andnC (d : Dst8) (a b : Opd8)
  /-- `SHL_C` (R69). Compact SHL. -/
  | shlC (d : Dst8) (a b : Opd8)
  /-- `SHR_C` (R69). Compact SHR. -/
  | shrC (d : Dst8) (a b : Opd8)
  /-- `SAR_C` (R69). Compact SAR. -/
  | sarC (d : Dst8) (a b : Opd8)
  /-- `ROL_C` (R69). Compact ROL. -/
  | rolC (d : Dst8) (a b : Opd8)
  /-- `ROR_C` (R69). Compact ROR. -/
  | rorC (d : Dst8) (a b : Opd8)
  /-- `ADD64_C` (R69). Compact 64-bit ADD. -/
  | add64C (d : Dst8) (a b : Opd8)
  /-- `SUB64_C` (R69). Compact 64-bit SUB. -/
  | sub64C (d : Dst8) (a b : Opd8)
  /-- `MOV_C` (R69). Compact 32-bit MOV. -/
  | movC (d : Dst8) (a : Opd8)
  /-- `MOV64_C` (R69). Compact 64-bit MOV. -/
  | mov64C (d : Dst8) (a : Opd8)
  /-- `NEG_C` (R69). Compact NEG. -/
  | negC (d : Dst8) (a : Opd8)
  /-- `NOT_C` (R69). Compact NOT. -/
  | notC (d : Dst8) (a : Opd8)
  /-- `POPC_C` (R69). Compact POPC. -/
  | popcC (d : Dst8) (a : Opd8)
  /-- `CLZ_C` (R69). Compact CLZ. -/
  | clzC (d : Dst8) (a : Opd8)
  /-- `CTZ_C` (R69). Compact CTZ. -/
  | ctzC (d : Dst8) (a : Opd8)
  /-- `SEXT8_C` (R69). Compact SEXT8. -/
  | sext8C (d : Dst8) (a : Opd8)
  /-- `SEXT16_C` (R69). Compact SEXT16. -/
  | sext16C (d : Dst8) (a : Opd8)
  /-- `ZEXT8_C` (R69). Compact ZEXT8. -/
  | zext8C (d : Dst8) (a : Opd8)
  /-- `ZEXT16_C` (R69). Compact ZEXT16. -/
  | zext16C (d : Dst8) (a : Opd8)
  /-- `FADD_C` (R69). Compact FADD, RNE. -/
  | faddC (d : Dst8) (a b : Opd8)
  /-- `FSUB_C` (R69). Compact FSUB, RNE. -/
  | fsubC (d : Dst8) (a b : Opd8)
  /-- `FMUL_C` (R69). Compact FMUL, RNE. -/
  | fmulC (d : Dst8) (a b : Opd8)
  /-- `FMIN_C` (R69). Compact FMIN. -/
  | fminC (d : Dst8) (a b : Opd8)
  /-- `FMAX_C` (R69). Compact FMAX. -/
  | fmaxC (d : Dst8) (a b : Opd8)
  /-- `FMINP_C` (R69). Compact FMINP. -/
  | fminpC (d : Dst8) (a b : Opd8)
  /-- `FMAXP_C` (R69). Compact FMAXP. -/
  | fmaxpC (d : Dst8) (a b : Opd8)
  /-- `FSCALE_C` (R69). Compact FSCALE, RNE. -/
  | fscaleC (d : Dst8) (a b : Opd8)
  /-- `HADD2_F16_C` (R69). Compact HADD2.f16. -/
  | hadd2F16C (d : Dst8) (a b : Opd8)
  /-- `HSUB2_F16_C` (R69). Compact HSUB2.f16. -/
  | hsub2F16C (d : Dst8) (a b : Opd8)
  /-- `HMUL2_F16_C` (R69). Compact HMUL2.f16. -/
  | hmul2F16C (d : Dst8) (a b : Opd8)
  /-- `HADD2_BF16_C` (R69). Compact HADD2.bf16. -/
  | hadd2Bf16C (d : Dst8) (a b : Opd8)
  /-- `HSUB2_BF16_C` (R69). Compact HSUB2.bf16. -/
  | hsub2Bf16C (d : Dst8) (a b : Opd8)
  /-- `HMUL2_BF16_C` (R69). Compact HMUL2.bf16. -/
  | hmul2Bf16C (d : Dst8) (a b : Opd8)
  /-- `FABS_C` (R69). Compact FABS. -/
  | fabsC (d : Dst8) (a : Opd8)
  /-- `FNEG_C` (R69). Compact FNEG. -/
  | fnegC (d : Dst8) (a : Opd8)
  /-- `RCP_C` (R69). Compact RCP. -/
  | rcpC (d : Dst8) (a : Opd8)
  /-- `RSQ_C` (R69). Compact RSQ. -/
  | rsqC (d : Dst8) (a : Opd8)
  /-- `SQRT_C` (R69). Compact SQRT. -/
  | sqrtC (d : Dst8) (a : Opd8)
  /-- `EXP2_C` (R69). Compact EXP2. -/
  | exp2C (d : Dst8) (a : Opd8)
  /-- `LOG2_C` (R69). Compact LOG2. -/
  | log2C (d : Dst8) (a : Opd8)
  /-- `TANH_C` (R69). Compact TANH. -/
  | tanhC (d : Dst8) (a : Opd8)
  /-- `SIGM_C` (R69). Compact SIGM. -/
  | sigmC (d : Dst8) (a : Opd8)
  /-- `DIVF_C` (R69). Compact DIVF. -/
  | divfC (d : Dst8) (a b : Opd8)
  /-- `CVT_F32_I32_C` (R69). Compact CVT.f32.i32, RNE. -/
  | cvtF32I32C (d : Dst8) (a : Opd8)
  /-- `CVT_I32_F32_C` (R69). Compact CVT.i32.f32, RNE. -/
  | cvtI32F32C (d : Dst8) (a : Opd8)
  /-- `CVT_F32_F16_C` (R69). Compact CVT.f32.f16. -/
  | cvtF32F16C (d : Dst8) (a : Opd8)
  /-- `CVT_F16_F32_C` (R69). Compact CVT.f16.f32, RNE. -/
  | cvtF16F32C (d : Dst8) (a : Opd8)
  /-- `SHFL_IDX_C` (R69). Compact 32-bit SHFL.idx. -/
  | shflIdxC (d : Dst8) (a b : Opd8)
  /-- `SHFL_XOR_C` (R69). Compact 32-bit SHFL.xor. -/
  | shflXorC (d : Dst8) (a b : Opd8)
  /-- `BRA_C` (R70). Compact unconditional branch with a 24-bit word offset. -/
  | braC (off : BitVec 24)
  /-- `EXIT_C` (R69). Compact EXIT. -/
  | exitC
  /-- `FETCH_RETURN` (R31). An instruction fetch returns and the waiting set issues. -/
  | fetchReturn (q : Nat)
  /-- `SFU_RESULT` (R97). An SFU result is written 14 clocks after issue and frees the scoreboard. `id` names the operation in flight. -/
  | sfuResult (id : Nat)
  /-- `LOAD_RESULT` (R186). A load's data returns and is written to its destination. `id` names the operation in flight. -/
  | loadResult (id : Nat)
  /-- `ATOMIC_RESULT` (R197). An atomic's old value returns from its home. `id` names the operation in flight. -/
  | atomicResult (id : Nat)
  /-- `TAGQ_RESULT` (R203). A tag lookup result is written after service. `id` names the operation in flight. -/
  | tagqResult (id : Nat)
  /-- `MATRIX_UNIT_DONE` (R255). A matrix, tile or spot instruction completes on its unit. `id` names the operation in flight. -/
  | matrixUnitDone (id : Nat)
  /-- `THSET_COMPLETE` (R242). The new tensor entry is in place on every die and the handle is written. `id` names the operation in flight. -/
  | thsetComplete (id : Nat)
  /-- `TRANSLATION_WALK_DONE` (R385). A page walk ends, sending the line on or faulting. -/
  | translationWalkDone (die vdev : Nat) (va : Dword)
  /-- `EMULATION_DONE` (R263). Front-end firmware finishes an emulated FP8 pair and the set continues. `id` names the operation in flight. -/
  | emulationDone (id : Nat)
  /-- `RUN_AHEAD_ISSUE` (R216). A run-ahead set issues one shadow instruction in an idle clock. `w` is the warp. -/
  | runAheadIssue (w : Nat)
  /-- `WINDOW_FILL` (R168). Empty window positions take incoming candidate warps. `q` is the quadrant. -/
  | windowFill (q : Nat)
  /-- `WINDOW_EXCHANGE` (R168). An outgoing and an incoming warp begin to exchange window places. `q` is the quadrant. -/
  | windowExchange (q : Nat)
  /-- `WINDOW_EXCHANGE_DONE` (R168). After 4 clocks the incoming warp becomes eligible. `q` is the quadrant. -/
  | windowExchangeDone (q : Nat)
  /-- `PAGE_SERVICE` (R220). Larkar services a fault record and unparks the threads or job. `leaves` are the page-table leaves Larkar writes (page address, entry); `ok` is false when Larkar cannot map. -/
  | pageService (vdev : Nat) (fseq : Word) (leaves : List (Dword × Dword)) (ok : Bool)
  /-- `ENGINE_JOB_START` (R313). A queued job begins once every conflicting earlier job has completed. -/
  | engineJobStart (tract job : Nat)
  /-- `ENGINE_JOB_ACCESS` (R315). A job performs bytes and subtracts them from its closure's PEND. `n` elements at most are performed. -/
  | engineJobAccess (tract job n : Nat)
  /-- `ENGINE_JOB_COMPLETE` (R314). A job has performed all accesses and subtractions and leaves the queue. -/
  | engineJobComplete (tract job : Nat)
  /-- `LAUNCH_RECORD` (R329). The parser checks a launch record, admits it or writes a refusal. -/
  | launchRecord (src : Source) (rec : List Dword)
  /-- `KICK` (R409). A kick page write sets a queue's TAIL and the front end takes its records or marks it pending. -/
  | kick (vdev n : Nat) (tail : BitVec 16)
  /-- `LAUNCH_FRAME` (R436). An Ethernet frame of type 0x88B5 delivers launch records in order. -/
  | launchFrame (port : Nat) (mac : BitVec 48) (payload : List Dword)
  /-- `DISPATCH_PARCEL` (R340). The dispatcher places the next ready parcel that fits. -/
  | dispatchParcel (vdev : Nat)
  /-- `STAGING_DONE` (R337). All boxes of a staging parcel have landed and it starts running. -/
  | stagingDone (vdev : Nat) (lseq : Word) (pseq : Nat)
  /-- `PARCEL_DONE` (R337). A parcel's threads, jobs and writes are finished and DONE is written. -/
  | parcelDone (vdev : Nat) (lseq : Word) (pseq : Nat)
  /-- `OVERRUN` (R339). A parcel exceeds its WCET and ends with an OVERRUN record. -/
  | overrun (vdev : Nat) (lseq : Word) (pseq : Nat)
  /-- `HANG` (R362). The progress counter reaches WDOG and the parcel ends with a HANG record. -/
  | hang (vdev : Nat) (lseq : Word) (pseq : Nat)
  /-- `SLICE_END` (R343). A virtual device's slice ends and a pre-emption request goes to its quadrants. -/
  | sliceEnd (vdev : Nat)
  /-- `SLICE_START` (R409). A device's slice begins; saved warps resume and pending queues are taken. -/
  | sliceStart (vdev : Nat)
  /-- `PREEMPT_HANDLER_ENTRY` (R345). A fully held warp enters the pre-emption handler or is saved. -/
  | preemptHandlerEntry (w : Nat)
  /-- `FORCED_SAVE` (R350). The pre-emption budget runs out and remaining warps are saved in full. -/
  | forcedSave (w : Nat)
  /-- `RESURVEY_START` (R358). Every 5,000,000 clocks a core is drained for its resurvey pass. -/
  | resurveyStart (die : Nat)
  /-- `RESURVEY_SCAN_END` (R358). The scan patterns end; the core returns to service or leaves it. -/
  | resurveyScanEnd (core : Nat) (pass : Bool)
  /-- `STALL_SAMPLE` (R418). Every P clocks the sampler records a warp's stall class. `q` is the quadrant. -/
  | stallSample (q : Nat)
  /-- `INVALIDATE_PAGE` (R387). Larkar invalidates a page on all ten dies. `entry` is the leaf Larkar stores first, if it changes it. -/
  | invalidatePage (vdev : Nat) (va : Dword) (entry : Option Dword)
  /-- `INVALIDATION_COMPLETE` (R388). An invalidation completes; held writes of the page replay. -/
  | invalidationComplete (vdev : Nat) (va : Dword)
  /-- `MIGRATION_COPY_DONE` (R388). The migration engine finishes copying a page. -/
  | migrationCopyDone (vdev : Nat) (va : Dword) (tier : BitVec 2) (frame : BitVec 48)
  /-- `FRAME_FREE` (R390). Larkar frees a frame to the scrub queue. -/
  | frameFree (tier : BitVec 2) (frame : BitVec 48) (big : Bool)
  /-- `SCRUB_DONE` (R390). A frame is zeroed and moves to the clean pool. -/
  | scrubDone (tier : BitVec 2) (frame : BitVec 48)
  /-- `UNIT_FAILING` (R396). A stack or expander reports failing; LIMIT is recomputed and evacuation begins. -/
  | unitFailing (cxl : Bool) (unit : Nat)
  /-- `EVACUATION_DONE` (R396). Larkar reports evacuation done; table P+1 is installed and moving begins. -/
  | evacuationDone (cxl : Bool)
  /-- `SWATH_START` (R398). The replat engine starts reading a swath under P. -/
  | swathStart (cxl : Bool)
  /-- `SWATH_COMPLETE` (R398). A swath is written under P+1; stalled requests proceed; the last ends the replat. -/
  | swathComplete (cxl : Bool) (swath : Nat)
  /-- `PARITY_WALK` (R357). The recovery engine visits and repairs a group in the background. -/
  | parityWalk (group : Nat)
  /-- `PARTITION_WRITE` (R402). Larkar writes a core's partition entry; refused if a set mixes owners, zeroing on owner change. -/
  | partitionWrite (core : Nat) (own div : Dword)
  /-- `CONTRACT_WRITE` (R404). Larkar writes a contract, refused if bandwidth shares exceed 240. -/
  | contractWrite (c : List Dword)
  /-- `REGISTER_WRITE` (R8). A write to a front-end register with no row of its own, such as a debug slot or window. -/
  | registerWrite (vdev : Nat) (r : FeReg) (v : Dword)
  /-- `HALT_GROUP` (R417). The debugger halts and saves every warp of a group. -/
  | haltGroup (vdev : Nat) (lseq : Word) (g : Nat)
  /-- `EDIT` (R417). The debugger edits a halted warp's saved state, setting EDIT. -/
  | edit (w : Nat) (e : Edit)
  /-- `RELEASE_GROUP` (R417). Halted warps of a group resume from saved state. -/
  | releaseGroup (vdev : Nat) (lseq : Word) (g : Nat)
  /-- `RELEASE_THREAD` (R414). A thread stopped at a breakpoint is released and passes it once. -/
  | releaseThread (vdev : Nat) (fseq : Word)
  /-- `PRECOPY_ROUND` (R411). Larkar clears D bits and copies dirty pages to the target. -/
  | precopyRound (vdev : Nat) (pages : List Dword)
  /-- `MIGRATION_STOP` (R411). STOP is set and every quadrant of the device is pre-empted with Bp 0. -/
  | migrationStop (vdev : Nat)
  /-- `MIGRATION_RESUME` (R411). The target installs the contract and resumes the saved image. -/
  | migrationResume (c : List Dword) (queues : List (Dword × Dword)) (pend : Word) (rec : List Dword)
  /-- `FLIT_RECEIVED` (R428). A Fythes flit arrives and is delivered in order or retried. -/
  | flitReceived (port : Nat) (seq : BitVec 24) (good : Bool)
  /-- `PORT_FAILURE` (R428). A Fythes port fails and leaves its peer's set. -/
  | portFailure (port : Nat)
  /-- `REMOTE_REQUEST` (R430). A remote window access is translated and performed for a peer. -/
  | remoteRequest (peer : BitVec 16) (vdev : Nat) (k : RemoteKind) (va : Dword) (n : Nat) (data : List Byte)
  /-- `COLL_CONTRIBUTION` (R432). A collective contribution lands and is counted or combined. -/
  | collContribution (tract job member : Nat) (data : List Byte)
  /-- `HOST_WRITE` (R378). A host write through the PCIe endpoint acts as a release at .sys. -/
  | hostWrite (vdev : Nat) (va : Dword) (data : List Byte)
  /-- `HOST_READ` (R378). A host read through the PCIe endpoint acts as an acquire at .sys. -/
  | hostRead (vdev : Nat) (kickPage : Bool) (va : Dword) (n : Nat)
  /-- `NVME_TRANSFER` (R437). Larkar moves blocks between NVMe storage and tenant frames. -/
  | nvmeTransfer (port : Nat) (toDevice : Bool) (block : Nat) (vdev : Nat) (va : Dword) (n : Nat)
  /-- `SET_PWRLIM` (R442). The owner sets the power limit through the mailbox. -/
  | setPwrlim (watts : Nat)
  /-- `OWNERSHIP_TRANSFER` (R441). A signed transfer drains launches, zeroes memory, clears the owner key and resets. -/
  | ownershipTransfer (sig : List Byte)
  /-- `OWNER_INSTALL` (R441). An owner key is installed, unsigned only the first time. -/
  | ownerInstall (key sig : List Byte)
  /-- `GET_VERSION` (R440). SPDM version request. -/
  | getVersion
  /-- `GET_CAPABILITIES` (R440). SPDM capabilities request. -/
  | getCapabilities
  /-- `NEGOTIATE_ALGORITHMS` (R440). SPDM algorithm negotiation, SM2 and SM3 only. -/
  | negotiateAlgorithms (sm2 sm3 : Bool)
  /-- `GET_DIGESTS` (R440). SPDM digests request. -/
  | getDigests
  /-- `GET_CERTIFICATE` (R440). SPDM certificate request. -/
  | getCertificate (slot : Nat)
  /-- `CHALLENGE` (R440). SPDM challenge request. -/
  | challenge (nonce : List Byte)
  /-- `GET_MEASUREMENTS` (R440). SPDM request for the measurement registers. -/
  | getMeasurements (index : Option (BitVec 3))
  /-- `POWER_ON_RESET` (R438). The boot ROM verifies and loads the stages, extending measurements. -/
  | powerOnReset (images : List BootImage)
  /-- `COOLANT_FAULT` (R442). Coolant outside its limits forces throttling as a hardware failure. -/
  | coolantFault (milliCelsius millilitres : Nat)
  /-- `JUNCTION_OVERTEMP` (R442). At 115 C the part stops and drops its PCIe link. -/
  | junctionOvertemp (celsius : Nat)
  /-- `POWER_THROTTLE` (R442). The part lowers or restores the arithmetic clock of its quadrants to stay within PWRLIM. -/
  | powerThrottle (q : Nat) (on : Bool)
  /-- `DEBUGGER_ATTACH` (R410). A debugger attaches to a virtual device while DBG is 1, so that breakpoint, watch and DIVERGED records go to its queue. -/
  | debuggerAttach (vdev : Nat)
  /-- `CLOSURE_OPERATION_PERFORMED` (R297). The closure's home performs a BINIT, BEXP, BARV, BWAIT or BTEST, and the set that stalled at issue goes on. `id` names the operation in flight. -/
  | closureOperationPerformed (id : Nat)
  /-- `STORE_PERFORMED` (R200). A store or write is performed at a scope, ending the stall of a FENCE, a release, PROF.stop or the effect of a TRIG mark. `id` names the operation in flight. -/
  | storePerformed (id : Nat)
  /-- `THDROP_ANSWER` (R243). The tensor table's home answers a THDROP and the stalled set goes on. `id` names the operation in flight. -/
  | thdropAnswer (id : Nat)
  /-- `WATCH_SLOT_INSTALLED` (R416). Every die holds the new watch slot and the stalled WATCH goes on. `id` names the operation in flight. -/
  | watchSlotInstalled (id : Nat)
deriving DecidableEq, Repr

end Sys2Proof
end

