-- ==== Sys2Proof/Machine/Fp.lean ====
section
/-! DEFINITION. Number formats and exact arithmetic (spec/04): floating-point values as exact dyadic numbers,
one rounding, conversions, residues. -/

namespace Sys2Proof
namespace Machine

/-- A floating-point layout (R74): exponent bits, fraction bits, bias, and whether it is E4M3 (R75). -/
structure FFmt where
  eb   : Nat
  fb   : Nat
  bias : Nat
  e4m3 : Bool
deriving DecidableEq, Repr

def fp32 : FFmt := { eb := 8, fb := 23, bias := 127, e4m3 := false }
def fp16 : FFmt := { eb := 5, fb := 10, bias := 15, e4m3 := false }
def bfp16 : FFmt := { eb := 8, fb := 7, bias := 127, e4m3 := false }
def fpE4 : FFmt := { eb := 4, fb := 3, bias := 7, e4m3 := true }
def fpE5 : FFmt := { eb := 5, fb := 2, bias := 15, e4m3 := false }

end Machine

/-- The layout of a packed half format. -/
def Half.fmt : Half → Machine.FFmt
  | .f16 => Machine.fp16
  | .bf16 => Machine.bfp16

namespace Machine

/-- A value: NaN, an infinity, or `(-1)^neg * m * 2^e`. -/
inductive Fl where
  | nan
  | inf (neg : Bool)
  | fin (neg : Bool) (m : Nat) (e : Int)
deriving DecidableEq, Repr

namespace FFmt

/-- Sign bit, all-ones exponent, canonical NaN, infinity, largest finite (R75). -/
def sign (f : FFmt) : Nat := 2 ^ (f.eb + f.fb)
def ones (f : FFmt) : Nat := 2 ^ f.eb - 1
def infCode (f : FFmt) : Nat := f.ones * 2 ^ f.fb
def nanCode (f : FFmt) : Nat := if f.e4m3 then 0x7F else f.infCode + 2 ^ (f.fb - 1)
def maxCode (f : FFmt) : Nat := if f.e4m3 then 0x7E else f.infCode - 1
def signed (f : FFmt) (neg : Bool) (c : Nat) : Nat := if neg then f.sign + c else c

def isNeg (f : FFmt) (c : Nat) : Bool := decide (f.sign ≤ c % (2 * f.sign))
def mag (f : FFmt) (c : Nat) : Nat := c % f.sign

/-- Exponent field 0 and a non-zero fraction. -/
def subnormal (f : FFmt) (c : Nat) : Bool := f.mag c != 0 && decide (f.mag c < 2 ^ f.fb)

/-- The value of a code (R74, R75). -/
def decode (f : FFmt) (c : Nat) : Fl :=
  let neg := f.isNeg c
  let a := f.mag c
  let ex := a / 2 ^ f.fb
  let fr := a % 2 ^ f.fb
  if f.e4m3 then
    if a = 0x7F then .nan
    else if ex = 0 then .fin neg fr (1 - (f.bias : Int) - f.fb)
    else .fin neg (2 ^ f.fb + fr) ((ex : Int) - f.bias - f.fb)
  else if ex = f.ones then (if fr = 0 then .inf neg else .nan)
  else if ex = 0 then .fin neg fr (1 - (f.bias : Int) - f.fb)
  else .fin neg (2 ^ f.fb + fr) ((ex : Int) - f.bias - f.fb)

/-- Overflow under a mode (R76, R83). -/
def overflow (f : FFmt) (rm : Rnd) (neg : Bool) : Nat :=
  if f.e4m3 then f.signed neg f.maxCode
  else
    match rm with
    | .rne => f.signed neg f.infCode
    | .rtz => f.signed neg f.maxCode
    | .rdn => if neg then f.signed true f.infCode else f.maxCode
    | .rup => if neg then f.signed true f.maxCode else f.infCode

end FFmt

/-- Whether rounding adds one to the truncated magnitude `q`: remainder `r` of `2^sh` (R76). -/
def roundUp (rm : Rnd) (neg : Bool) (q r sh : Nat) : Bool :=
  match rm with
  | .rne => decide (2 * r > 2 ^ sh) || (2 * r == 2 ^ sh && q % 2 == 1)
  | .rtz => false
  | .rdn => neg && r != 0
  | .rup => !neg && r != 0

/-- The magnitude `m * 2^e` in units of `2^qe`, rounded. -/
def quantize (rm : Rnd) (neg : Bool) (m : Nat) (e qe : Int) : Nat :=
  if qe ≤ e then m * 2 ^ (e - qe).toNat
  else
    let sh := (qe - e).toNat
    let q := m / 2 ^ sh
    if roundUp rm neg q (m % 2 ^ sh) sh then q + 1 else q

/-- ROUND(x, fmt, mode) of R76: the code of an exact value. -/
def FFmt.round (f : FFmt) (rm : Rnd) : Fl → Nat
  | .nan => f.nanCode
  | .inf neg => if f.e4m3 then f.signed neg f.maxCode else f.signed neg f.infCode
  | .fin neg m e =>
    if m = 0 then f.signed neg 0
    else
      let lead : Int := e + (Nat.log2 m : Int)
      let emin : Int := 1 - (f.bias : Int)
      let qe : Int := (if lead < emin then emin else lead) - f.fb
      let q := quantize rm neg m e qe
      let code := if lead < emin then q else ((qe + f.fb + f.bias).toNat - 1) * 2 ^ f.fb + q
      if code > f.maxCode then f.overflow rm neg else f.signed neg code

/-- Integer rounding of an exact finite value (R83). -/
def roundToInt (rm : Rnd) (neg : Bool) (m : Nat) (e : Int) : Int :=
  let q : Int := quantize rm neg m e 0
  if neg then -q else q

namespace Fl

def neg : Fl → Fl
  | nan => nan
  | inf n => inf (!n)
  | fin n m e => fin (!n) m e

/-- An exact integer as a value; zero is +0 (R83). -/
def ofInt (i : Int) : Fl := fin (decide (i < 0)) i.natAbs 0

/-- Exact sum; the sign of an exact zero under the mode (R77), opposite infinities give NaN. -/
def add (rm : Rnd) : Fl → Fl → Fl
  | nan, _ => nan
  | _, nan => nan
  | inf a, inf b => if a = b then inf a else nan
  | inf a, _ => inf a
  | _, inf b => inf b
  | fin n1 m1 e1, fin n2 m2 e2 =>
    if m1 = 0 ∧ m2 = 0 then fin (if n1 = n2 then n1 else decide (rm = .rdn)) 0 0
    else
      let e := min e1 e2
      let a : Int := (m1 * 2 ^ (e1 - e).toNat : Nat)
      let b : Int := (m2 * 2 ^ (e2 - e).toNat : Nat)
      let s := (if n1 then -a else a) + (if n2 then -b else b)
      if s = 0 then fin (decide (rm = .rdn)) 0 0 else fin (decide (s < 0)) s.natAbs e

/-- Exact product; 0 times infinity is NaN (R110). -/
def mul : Fl → Fl → Fl
  | nan, _ => nan
  | _, nan => nan
  | inf a, inf b => inf (xor a b)
  | inf a, fin n m _ => if m = 0 then nan else inf (xor a n)
  | fin n m _, inf b => if m = 0 then nan else inf (xor n b)
  | fin n1 m1 e1, fin n2 m2 e2 => fin (xor n1 n2) (m1 * m2) (e1 + e2)

/-- Quotient, with enough bits and a sticky bit for one rounding to any format here (R118, R120). -/
def quot : Fl → Fl → Fl
  | nan, _ => nan
  | _, nan => nan
  | inf _, inf _ => nan
  | inf a, fin n _ _ => inf (xor a n)
  | fin n _ _, inf b => fin (xor n b) 0 0
  | fin n1 m1 e1, fin n2 m2 e2 =>
    if m2 = 0 then (if m1 = 0 then nan else inf (xor n1 n2))
    else if m1 = 0 then fin (xor n1 n2) 0 0
    else
      let sh := 96 + Nat.log2 m2
      let a := m1 * 2 ^ sh
      let q := a / m2
      fin (xor n1 n2) (2 * q + (if a % m2 = 0 then 0 else 1)) (e1 - e2 - sh - 1)

/-- Multiply by a power of two. -/
def scale (k : Int) : Fl → Fl
  | fin n m e => fin n m (e + k)
  | x => x

/-- Strict order of finite and infinite values; false with a NaN. -/
def lt : Fl → Fl → Bool
  | nan, _ => false
  | _, nan => false
  | inf a, inf b => a && !b
  | inf a, fin _ _ _ => a
  | fin _ _ _, inf b => !b
  | fin n1 m1 e1, fin n2 m2 e2 =>
    let e := min e1 e2
    let a : Int := (m1 * 2 ^ (e1 - e).toNat : Nat)
    let b : Int := (m2 * 2 ^ (e2 - e).toNat : Nat)
    decide ((if n1 then -a else a) < (if n2 then -b else b))

def isNan : Fl → Bool
  | nan => true
  | _ => false

/-- Equal values, zeros of either sign alike (R82). -/
def eq (a b : Fl) : Bool := !a.isNan && !b.isNan && !(lt a b) && !(lt b a)

end Fl

/-- An input under the flush flag: a subnormal is read as a zero of its own sign (R78). -/
def FFmt.input (f : FFmt) (flush : Bool) (c : Nat) : Fl :=
  if flush && f.subnormal c then .fin (f.isNeg c) 0 0 else f.decode c

/-- A result under the flush flag: a subnormal becomes a zero of its own sign after rounding (R78). -/
def FFmt.output (f : FFmt) (flush : Bool) (rm : Rnd) (x : Fl) : Nat :=
  let c := f.round rm x
  if flush && f.subnormal c then f.signed (f.isNeg c) 0 else c

/-- Bits of FP32 codes as words. -/
def w32 (n : Nat) : Word := BitVec.ofNat 32 n
def f32 (w : Word) : Fl := fp32.decode w.toNat
/-- RN(x): ROUND(x, FP32, RNE) (R76). -/
def rn (x : Fl) : Word := w32 (fp32.round .rne x)
def canonNan : Word := 0x7FC00000

/-- FP32 addition under RNE with subnormals honoured. -/
def addRn (a b : Word) : Word := rn (Fl.add .rne (f32 a) (f32 b))
def mulRn (a b : Word) : Word := rn (Fl.mul (f32 a) (f32 b))
def fmaRn (a b c : Word) : Word := rn (Fl.add .rne (Fl.mul (f32 a) (f32 b)) (f32 c))

/-- Minimum and maximum of codes: −0 below +0 (R82); a returned operand keeps its bits (R112). `prop` propagates
NaN, else a number is preferred (R80). -/
def FFmt.below (f : FFmt) (a b : Nat) : Bool :=
  Fl.lt (f.decode a) (f.decode b) || (Fl.eq (f.decode a) (f.decode b) && f.isNeg a && !f.isNeg b)

def FFmt.minmax (f : FFmt) (isMax prop : Bool) (a b : Nat) : Nat :=
  let na := (f.decode a).isNan
  let nb := (f.decode b).isNan
  if na && nb then f.nanCode
  else if na then (if prop then f.nanCode else b)
  else if nb then (if prop then f.nanCode else a)
  else if isMax then (if f.below a b then b else a)
  else (if f.below b a then b else a)

/-- Conversion between two floating formats (R83). -/
def FFmt.convert (src dst : FFmt) (rm : Rnd) (c : Nat) : Nat := dst.round rm (src.decode c)

/-- FP32 to an integer of a range, saturating; NaN gives 0 (R83). -/
def fpToInt (rm : Rnd) (lo hi : Int) (c : Nat) : Int :=
  match fp32.decode c with
  | .nan => 0
  | .inf neg => if neg then lo else hi
  | .fin n m e => max lo (min hi (roundToInt rm n m e))

/-- `FRND` (R115). -/
def frnd (rm : Rnd) (c : Nat) : Nat :=
  match fp32.decode c with
  | .nan => fp32.nanCode
  | .inf _ => c
  | .fin n m e =>
    if m = 0 ∨ 0 ≤ e then c
    else
      let q := quantize rm n m e 0
      if q = 0 then fp32.signed n 0 else fp32.round .rtz (.fin n q 0)

/-- `FCLASS` (R116). -/
def fclass (c : Nat) : Nat :=
  let n := fp32.isNeg c
  let a := fp32.mag c
  let ex := a / 2 ^ 23
  let b :=
    if ex = 255 then
      if a % 2 ^ 23 = 0 then (if n then 0 else 7) else (if a / 2 ^ 22 % 2 = 0 then 8 else 9)
    else if a = 0 then (if n then 3 else 4)
    else if ex = 0 then (if n then 2 else 5)
    else (if n then 1 else 6)
  2 ^ b

/-- `FSAT` (R115): clamp to 0.0..1.0; a NaN and −0 give +0. -/
def fsat (c : Nat) : Nat :=
  match fp32.decode c with
  | .nan => 0
  | x =>
    if fp32.isNeg c then 0
    else if Fl.lt (.fin false 1 0) x then 0x3F800000
    else c

/-! ### Residue channels (R87 to R90) -/

/-- Residues of a block: channels of 255, 256 and 257. -/
structure Res3 where
  r255 : Nat
  r256 : Nat
  r257 : Nat
deriving DecidableEq, Repr

/-- The container of R90, and back with each field reduced. -/
def Res3.pack (r : Res3) : Word := w32 (r.r257 * 65536 + r.r256 * 256 + r.r255)
def Res3.unpack (w : Word) : Res3 :=
  { r255 := w.toNat % 256 % 255, r256 := w.toNat / 256 % 256, r257 := w.toNat / 65536 % 512 % 257 }

/-- MOD of a signed element (R87). -/
def modN (q : Int) (m : Nat) : Nat := (q % (m : Int)).toNat

/-- Add a product to the channels (R87). -/
def Res3.mac (r : Res3) (a b : Int) : Res3 :=
  { r255 := (r.r255 + modN a 255 * modN b 255) % 255,
    r256 := (r.r256 + modN a 256 * modN b 256) % 256,
    r257 := (r.r257 + modN a 257 * modN b 257) % 257 }

/-- CRT: the signed block sum (R88). -/
def Res3.sum (r : Res3) : Int :=
  let d0 := r.r256
  let d1 := modN ((r.r255 : Int) - d0) 255
  let d2 := modN (((r.r257 : Int) - d0 + d1) * 129) 257
  let u := d0 + 256 * d1 + 65280 * d2
  if 8388480 ≤ u then (u : Int) - 16776960 else u

/-- Block close (R89): scale codes of the A row and the B column. -/
def closeBlock (acc : Word) (r : Res3) (sa sb : Nat) : Word :=
  if sa = 255 ∨ sb = 255 then canonNan
  else
    let s := r.sum
    let x : Fl := (Fl.ofInt s).scale ((sa : Int) - 127 + ((sb : Int) - 127))
    rn (Fl.add .rne (f32 acc) x)

/-- The exact sum of a group of products (R91). -/
def groupSum (ps : List Fl) : Fl :=
  match ps with
  | [] => .fin false 0 0
  | p :: rest =>
    let x := rest.foldl (fun a b => Fl.add .rne a b) p
    match x with
    | .fin _ 0 _ =>
      .fin (ps.all (fun p => match p with
        | .fin true 0 _ => true
        | _ => false)) 0 0
    | y => y

end Machine
end Sys2Proof
end

