-- ==== Sys2Proof/Config.lean ====
section
/-! DEFINITION. What the spec leaves open or gives to another standard: constants without a body, so that no
proof can see a value of them. Each has a row in notes/assumptions. -/

namespace Sys2Proof

/-- A free value, applied to the counter `State.freeCtr`: what a peer package's memory or another agent
outside the package returns, whose contents the spec does not give (spec/24 R430). -/
opaque Config.freeValue : Nat → BitVec 64

/-- Whether a fetched word of changed code is the new one (spec/03 R49), applied to the same counter. -/
opaque Config.codeWordIsNew : Nat → Bool

/-- The SM3 digest (spec/24 R438, R439): a standard of its own, which the spec names and does not give. -/
opaque Config.sm3 : List (BitVec 8) → List (BitVec 8)

/-- Verification of an SM2 signature: key, digest, signature (spec/24 R438, R441). -/
opaque Config.sm2Verify : List (BitVec 8) → List (BitVec 8) → List (BitVec 8) → Bool

/-- Malxel's key, whose digest is fused in the ROM (spec/24 R438). -/
opaque Config.malxelKey : List (BitVec 8)

/-- The part's own signing of SPDM answers (spec/24 R440). -/
opaque Config.spdmSign : List (BitVec 8) → List (BitVec 8)

/-- The certificate chain of an SPDM slot (spec/24 R440). -/
opaque Config.certificate : Nat → List (BitVec 8)

/-- The bytes of the transfer command that its signature covers (spec/24 R441). -/
opaque Config.transferCommand : List (BitVec 8)

/-- The encoding of an SPDM answer (spec/24 R440), of which the spec gives the contents and another standard the bytes: the
request's place in R440's list (7 for an error), and the contents. -/
opaque Config.spdmAnswer : Nat → List (BitVec 8) → List (BitVec 8)

/-- Lines of 128 bytes of the expander on each CXL port, 0 for a port with no device (spec/20 R382): the platform's
own. -/
opaque Config.cxlLines : Nat → Nat

/-- Bytes of a logical block of the controller on an NVMe root port (spec/24 R437). -/
opaque Config.nvmeBlock : Nat → Nat

/-- The fields of an engine job that a 128-byte record of the job section of a saved image holds (spec/18 R352): only the
part reads and writes those records, and the spec does not lay them out. -/
opaque Config.jobRecord : List (BitVec 8) → List Nat

/-- The 128-byte record that holds the fields of an engine job in the job section (spec/18 R352): the converse of
`Config.jobRecord`. -/
opaque Config.jobBytes : List Nat → List (BitVec 8)

/-- Where in a device's save area a part of a saved image lies, in units of 64 bytes from its base (spec/18 R352): the launch's
`LSEQ`, and the number of the part. The spec gives the parts of an image and not where in the area they lie. -/
opaque Config.saveOffset : Nat → Nat → Nat

/-- Whether a peer performs a request that reaches it (spec/24 R430): its own page tables and memory decide. Applied to the counter of
free values. -/
opaque Config.peerPerforms : Nat → Bool

/-- Which of a peer's working ports a flit goes out on (spec/24 R428): traffic is spread over them, and the spec does not say
how. Applied to the counter of free values. -/
opaque Config.portChoice : Nat → Nat

/-- Whether a controller or port throttles a device to its bandwidth share in a policy-core clock (spec/18 R361): the traffic at
the units is not modelled. -/
opaque Config.shareThrottled : Nat → Nat → Bool

/-- Clocks in which the rotation schedule leaves a device descheduled while a parcel could run, the fourth
term of spec/17 R339: the device and the parcel's quadrant clocks. -/
opaque Config.descheduled : Nat → Nat → Nat

/-- Whether a throttled quadrant gets no clock in a round of the quadrants' clocks (spec/07 R159, spec/24 R442): how far
throttling lowers the arithmetic clock is the part's own. -/
opaque Config.heldClock : Nat → Nat → Bool

/-- Whether a resurvey pass of a core passes (spec/18 R358): the core, and the number of the pass. -/
opaque Config.scanPasses : Nat → Nat → Bool

/-- Whether a member of a collective that a job waits for is descheduled on its own package at a policy-core clock (spec/24
R434): nothing on this part says so. -/
opaque Config.memberDescheduled : Nat → Bool

/-- The field `THR` of an alias-table entry whose P lies outside its range 0..2^24 (spec/13 R272, R274). -/
opaque Config.thrOutside : Int → BitVec 25

/-- The lowest arithmetic clock in MHz that a power limit in watts allows (spec/17 R339); the spec gives it
for 2,600 W alone, where it is 850. -/
opaque Config.clockAtOther : Nat → Nat

/-- The lowest arithmetic clock in MHz that a power limit allows. -/
def Config.clockAt (watts : Nat) : Nat := if watts = 2600 then 850 else Config.clockAtOther watts

end Sys2Proof
end

