-- ==== Sys2Proof/Machine/Bits.lean ====
section
/-! DEFINITION. Bit fields, sign extension, byte order and lane lists: the helpers that every meaning shares
(spec/00 R4, spec/02 R23, spec/06 R123). -/

namespace Sys2Proof.Machine

/-- Bits [hi:lo] of a natural number. -/
def bits (x hi lo : Nat) : Nat := (x / 2 ^ lo) % 2 ^ (hi + 1 - lo)

/-- The same of a 64-bit value. -/
def field (x : Dword) (hi lo : Nat) : Nat := bits x.toNat hi lo

/-- Low word of a 64-bit value. -/
def lo32 (x : Dword) : Word := x.setWidth 32

/-- High word of a 64-bit value. -/
def hi32 (x : Dword) : Word := (x >>> 32).setWidth 32

/-- Two words as a 64-bit value, low word first (R23). -/
def pair64 (lo hi : Word) : Dword := (hi.setWidth 64 <<< 32) ||| lo.setWidth 64

/-- A word zero-extended. -/
def zx (w : Word) : Dword := w.setWidth 64

/-- A word sign-extended. -/
def sx (w : Word) : Dword := w.signExtend 64

/-- An address taken modulo 2^57 and sign-extended from bit 56 (R123). -/
def canon (a : Dword) : Dword := (a.setWidth 57).signExtend 64

/-- Bits [63:57] are all copies of bit 56 (R124). -/
def canonical (a : Dword) : Bool := canon a == a

/-- `n` bytes of a natural number, little-endian (R4). -/
def leBytes : Nat → Nat → List Byte
  | 0, _ => []
  | n + 1, x => BitVec.ofNat 8 x :: leBytes n (x / 256)

/-- Little-endian bytes as a natural number (R4). -/
def leNat : List Byte → Nat
  | [] => 0
  | b :: bs => b.toNat + 256 * leNat bs

/-- `0, 1, …, n - 1`. -/
def upTo (n : Nat) : List Nat := List.range n

/-- The 32 lanes in ascending order (R18). -/
def lanes : List Nat :=
  [0, 1, 2, 3, 4, 5, 6, 7, 8, 9, 10, 11, 12, 13, 14, 15, 16, 17, 18, 19, 20, 21, 22, 23, 24, 25, 26, 27, 28,
   29, 30, 31]

/-- Bit `l` of a lane mask. -/
def hasLane (m : Mask) (l : Nat) : Bool := m.getLsbD l

/-- The mask of one lane. -/
def laneBit (l : Nat) : Mask := (1 : BitVec 32) <<< l

/-- The lanes of a mask in ascending order. -/
def laneList (m : Mask) : List Nat := lanes.filter (hasLane m)

/-- The mask of the lanes of which `p` holds. -/
def maskOf (p : Nat → Bool) : Mask :=
  lanes.foldl (fun m l => if p l then m ||| laneBit l else m) 0

/-- The lowest lane of a mask; 0 for the empty mask. -/
def lowest (m : Mask) : Nat := (laneList m).headD 0

/-- The number of lanes of a mask. -/
def laneCount (m : Mask) : Nat := (laneList m).length

/-- Insert a number into a rising list, once. -/
def insertNat (x : Nat) : List Nat → List Nat
  | [] => [x]
  | y :: ys => if x < y then x :: y :: ys else if x = y then y :: ys else y :: insertNat x ys

/-- Least of a list by a natural measure; the first on ties. -/
def minBy {α : Type} (f : α → Nat) : List α → Option α
  | [] => none
  | x :: xs =>
    match minBy f xs with
    | none => some x
    | some y => if f x ≤ f y then some x else some y

/-- Ceiling of a quotient. -/
def ceilDiv (a b : Nat) : Nat := if b = 0 then 0 else (a + b - 1) / b

end Sys2Proof.Machine
end

