-- ==== Sys2Proof/Machine/NMap.lean ====
section
/-! DEFINITION. Sparse maps from natural keys, as plain data: a list of key and value pairs in one
canonical form (keys strictly rising, no entry equal to the default). Memory and every register file of
the machine are such maps (spec/00 R4: the smallest unit of memory is the byte). -/

namespace Sys2Proof.Machine

/-- A sparse map: what an unlisted key reads as is an argument of the accessors. -/
abbrev NMap (α : Type) := List (Nat × α)

/-- The value at `k`; `d` where no entry has that key. -/
def NMap.get {α : Type} (d : α) : NMap α → Nat → α
  | [], _ => d
  | e :: m, k => if k = e.1 then e.2 else NMap.get d m k

/-- Enter `v` at `k`, keeping the keys rising. -/
def NMap.put {α : Type} : NMap α → Nat → α → NMap α
  | [], k, v => [(k, v)]
  | e :: m, k, v =>
    if k < e.1 then (k, v) :: e :: m
    else if k = e.1 then (k, v) :: m
    else e :: NMap.put m k v

/-- Remove every entry whose key is `k`. -/
def NMap.drop {α : Type} (m : NMap α) (k : Nat) : NMap α := m.filter (fun e => !(e.1 == k))

/-- Write `v` at `k`; writing the default removes the entry. -/
def NMap.set {α : Type} [DecidableEq α] (d : α) (m : NMap α) (k : Nat) (v : α) : NMap α :=
  if v = d then NMap.drop m k else NMap.put m k v

/-- Remove the entries whose key lies in `lo`, …, `lo + n - 1`: a range cleared to the default (R390, R403). -/
def NMap.clear {α : Type} (m : NMap α) (lo n : Nat) : NMap α :=
  m.filter (fun e => !(decide (lo ≤ e.1) && decide (e.1 < lo + n)))

/-- Keys strictly rising from above `b`. -/
def NMap.rising {α : Type} : Option Nat → NMap α → Bool
  | _, [] => true
  | none, e :: m => NMap.rising (some e.1) m
  | some b, e :: m => decide (b < e.1) && NMap.rising (some e.1) m

/-- The canonical form: keys strictly rising and no entry equal to the default. -/
def NMap.wf {α : Type} [DecidableEq α] (d : α) (m : NMap α) : Bool :=
  NMap.rising none m && m.all (fun e => !(decide (e.2 = d)))

end Sys2Proof.Machine
end

