-- ==== Sys2Proof/Machine/State.lean ====
section
/-! DEFINITION. The state of one EXL-716 as plain data: threads, warps, quadrants, cores, engine queues,
contracts, launches, memory tiers, host and boot state, and the model's own bookkeeping (which set is
issuing, what is in flight, the schedule of inputs). `State.reset` is the part right after power-on reset. -/

namespace Sys2Proof.Machine

/-- What stops the machine for good. -/
inductive Fault where
  /-- `step` once the junction has reached 115 C and no input is to come: the part has stopped at once (R442). Safe: the spec
  gives no further step. -/
  | partStopped
deriving DecidableEq, Repr

/-- Why a step has no answer. -/
inductive Refusal where
  /-- `exec`: an arm without a meaning. Safe. -/
  | notModelled (mnemonic : String)
deriving DecidableEq, Repr

/-- How a thread stands (R19, R208). -/
inductive TStat where
  /-- Ready, unless its warp holds it. -/
  | ready
  /-- Blocked in `WAITJ` on a mask (R139); `len` is the length in words of the blocking instruction. -/
  | waitj (j len : Nat)
  /-- Blocked in `SLEEPJ` on a mask (R140). -/
  | sleepj (j len : Nat)
  /-- Recorded as a waiter of the closure at this memory key (R301). -/
  | bwait (home len : Nat)
  /-- Parked on the record with this `FSEQ` (R219); `dbg`: stopped for the debugger (R414). -/
  | parked (fseq : Word) (dbg : Bool)
  /-- In run-ahead (R216). -/
  | runAhead
  /-- Stalled at its issued instruction until the operation in flight with this number ends (R134, R243,
  R263, R297, R416). Number 0: the instruction has come to issue and waits for a condition of its own, which is tried
  again (R200, R213, R254, R307, R351); number 1: the same, at an other-warp `LPUSH` (R151). -/
  | stalled (id : Nat)
  /-- Waiting at a gang form for the other members (R253). -/
  | gang
  /-- Ceded for good (R349). -/
  | ceded
deriving DecidableEq, Repr

/-- A thread's trap state (R222). -/
structure TrapState where
  pc     : Dword
  len    : BitVec 2
  fseq   : Word
  cause  : Byte
  inTrap : Bool
  rpc    : Dword
  survM  : Dword
  survW  : BitVec 2
  /-- Instructions of the interrupted strand not yet committed (R422). -/
  since  : Dword
deriving DecidableEq, Repr

/-- A thread's own control state; its registers lie in its warp. -/
structure Thread where
  /-- Program counter (R18). -/
  pc : Dword
  /-- Restart PC (R29, R41). -/
  rpc : Dword
  stat : TStat
  /-- Return-stack entries 1..4, bits [56:2] (R129). -/
  e1 : BitVec 55
  e2 : BitVec 55
  e3 : BitVec 55
  e4 : BitVec 55
  /-- `LIVE` and `DEPTH` of `CSPDEPTH` (R131). -/
  live  : Nat
  depth : BitVec 16
  /-- The next instruction must be a `STRAND` header (R40). -/
  needHdr : Bool
  /-- It stands at a resume point of a saved image, where it may also issue again the instruction at which it was blocked
  (R141, R302). -/
  again : Bool
  /-- Survivor declaration of the current strand (R36). -/
  survW : BitVec 2
  survM : Dword
  trap : TrapState
  /-- `RETIRED` (R422), and instructions issued since the restart PC last moved. -/
  retired : Dword
  since   : Dword
  /-- Sealing instructions issued, the k of R423. -/
  seals : Nat
  /-- `TRIG` issued: the number that the next operation in flight had then; and the mark in effect (R305). -/
  trigAt : Option Nat
  trig   : Bool
  /-- The breakpoint PC at which the thread stopped, and the one it may pass once (R414). -/
  bpStop : Option Dword
  bpPass : Option Dword
  /-- Resume PC of the pre-emption (R345). -/
  resume : Dword
deriving DecidableEq, Repr

def TrapState.init : TrapState :=
  { pc := 0, len := 0, fseq := 0, cause := 0, inTrap := false, rpc := 0, survM := 0, survW := 0,
    since := 0 }

def Thread.init : Thread :=
  { pc := 0, rpc := 0, stat := .ready, e1 := 0, e2 := 0, e3 := 0, e4 := 0, live := 0, depth := 0,
    needHdr := false, again := false, survW := 0, survM := 0, trap := TrapState.init, retired := 0, since := 0, seals := 0,
    trigAt := none, trig := false, bpStop := none, bpPass := none, resume := 0 }

/-- The issue of one set: quadrant, warp slot, lanes, address, length in words, `CLOCK` at issue (R19, R159). -/
structure Issue where
  quad  : Nat
  slot  : Nat
  mask  : Mask
  pc    : Dword
  words : Nat
  clk   : Nat
deriving DecidableEq, Repr

def Issue.none : Issue := { quad := 0, slot := 0, mask := 0, pc := 0, words := 2, clk := 0 }

/-- A member that waits at a gang form (R253): its issue, the instruction, the group, what the members must agree on, and
the entries and index values captured at issue (R240, R251). -/
structure GangWait where
  iss   : Issue
  ins   : Instr
  group : Nat
  key   : List Nat
  ents  : List (List Dword)
  vals  : List Nat
deriving DecidableEq, Repr

/-- A warp (R18, R22). Register maps are keyed by lane and register: hold `256 * lane + r`, near
`16 * lane + r`, latch `4 * lane + r`. -/
structure Warp where
  vdev : Nat
  lseq : Word
  pseq : Nat
  /-- Local quadrant (`PARCEL`, R335), and its number in the image's warp table (R332, R423). -/
  lq : Nat
  num : Nat
  /-- Hold count C (R24). -/
  hc : Nat
  /-- Flush flag (R78). -/
  flush : Bool
  /-- Trap handler (R222). -/
  handler : Dword
  /-- `CSPBASE` and `STRIDE` (R130, R131). -/
  cspbase : Dword
  stride  : BitVec 16
  /-- Job counter (R308). -/
  jobs : Word
  /-- `GROUPS` (R288). -/
  groups : BitVec 36
  /-- Lanes that hold a thread, and those that have not exited. -/
  tmask : Mask
  live  : Mask
  threads : NMap Thread
  hold    : NMap Word
  near    : NMap Word
  /-- Written bits of near registers (R34), per register. -/
  nearW   : NMap Mask
  latch   : NMap Dword
  /-- Valid bits of latches (R30), per latch. -/
  latchV  : NMap Mask
  uni     : NMap Word
  pred    : NMap Mask
  rejoin  : NMap Mask
  /-- `NOPRE` (R346). -/
  nopre : Bool
  /-- In the pre-emption handler (R345). -/
  inPre : Bool
  /-- Groups under a halt of the debugger that hold it (R417). -/
  halts : List Nat
  /-- `LAST` (R162); none is "never". -/
  last : Option Nat
  /-- Clock at which it entered the window, and left it (R166, R167). -/
  enteredAt : Nat
  leftAt    : Option Nat
  /-- The current strand is warp-wide (R246); a warp-wide strand stands behind the trap handler (R222, R245). -/
  wide : Bool
  trapWide : Bool
  /-- Read footprints held until the strand with this entry seals: key and length of each piece (R256). -/
  foot : List (Nat × Nat)
  footAt : Dword
  /-- Waiting at a gang form; the gangs of the current strand; standing at that strand's end (R253, R254). -/
  gang    : Option GangWait
  /-- Sets that wait at a warp-wide instruction (R213). -/
  wides   : List Issue
  gangGrps : List Nat
  gangEnd : Bool
  /-- Hold registers that `SAVE.hold` has put into the image, keyed as `hold` (R348). -/
  savHold : NMap Word
  /-- The edited flag (R211). -/
  edit : Bool
deriving DecidableEq, Repr

def Warp.init : Warp :=
  { vdev := 0, lseq := 0, pseq := 0, lq := 0, num := 0, hc := 16, flush := false, handler := 0, cspbase := 0,
    stride := 0, jobs := 0, groups := 0, tmask := 0, live := 0, threads := [], hold := [], near := [],
    nearW := [], latch := [], latchV := [], uni := [], pred := [], rejoin := [], nopre := false,
    inPre := false, halts := [], last := none, enteredAt := 0, leftAt := none, wide := false,
    trapWide := false, foot := [], footAt := 0, gang := none, wides := [], gangGrps := [], gangEnd := false, savHold := [], edit := false }

/-- One accumulator image (R244, R281): elements and residue containers (R90) keyed `128 * row + column`,
the open-block count L with its shape (M, N in rows and columns, gang code), and the run registers. -/
structure Acc where
  el   : NMap Word
  res  : NMap Word
  l    : Nat
  shM  : Nat
  shN  : Nat
  shG  : Nat
  cnt  : Dword
  var  : Word
  nrm  : Word
deriving DecidableEq, Repr

def Acc.init : Acc :=
  { el := [], res := [], l := 0, shM := 0, shN := 0, shG := 0, cnt := 0, var := 0, nrm := 0 }

/-- A position of the active window (R158, R168). -/
inductive Pos where
  | empty
  | warp (slot : Nat)
  /-- An exchange that ends at clock `done`; `inc` is none when a kill has taken the incoming warp (R169). -/
  | exch (out : Nat) (inc : Option Nat) (done : Nat)
deriving DecidableEq, Repr

/-- The sampler (R418, R420, R421). -/
structure Sampler where
  /-- 0 off, 1 stall, 2 mem. -/
  mode  : Nat
  vdev  : Nat
  base  : Dword
  per   : Nat
  cap   : Nat
  fill  : Nat
  drop  : Nat
  start : Nat
  /-- Samples taken at clock points so far; MEM or ATOMIC instructions counted so far. -/
  count : Nat
  next  : Nat
deriving DecidableEq, Repr

/-- A stopped sampler keeps its run's counts, for the samples taken before the stop (R426). -/
def Sampler.stop (m : Sampler) : Sampler := { m with mode := 0 }

def Sampler.off : Sampler :=
  { mode := 0, vdev := 0, base := 0, per := 0, cap := 0, fill := 0, drop := 0, start := 0, count := 0, next := 0 }

/-- Why a quadrant is asked to give up its warps (R343). -/
inductive ReqKind where
  | slice | drain | stop
deriving DecidableEq, Repr

/-- A pre-emption request on a quadrant: device, clock at which the budget ends (R343). -/
structure PreReq where
  kind : ReqKind
  vdev : Nat
  ends : Nat
deriving DecidableEq, Repr

/-- A warp as a stall sample finds it before the clock's issue (R418): its slot, itself, its set, whether it is active, whether a set of
it could issue, and the first class that applies to a warp whose set neither issues nor waits on fetch. -/
structure SampleView where
  slot   : Nat
  warp   : Warp
  pc     : Dword
  lanes  : Mask
  active : Bool
  ready  : Bool
  cls    : Nat
deriving DecidableEq, Repr

/-- An issue quadrant (R158). -/
structure Quad where
  /-- `CLOCK` (R159), and the round up to which it has been counted. -/
  clock : Nat
  seen  : Nat
  /-- Window positions 0..3. -/
  win : List Pos
  /-- `cur` (R163): slot, lanes, PC of the set that issued last. -/
  cur : Option (Nat × Mask × Dword)
  /-- Whether `cur` issued in the present clock (R418). -/
  issued : Bool
  /-- `CLOCK` when throttling last held the quadrant (R159, R418). -/
  heldAt : Option Nat
  /-- The first outgoing candidate as the present clock decides, and its ready lanes then (R166, R169). -/
  outSnap : Option (Nat × Mask)
  /-- A set chosen and waiting on fetch (R31): slot, lanes, PC. -/
  fetch : Option (Nat × Mask × Dword)
  /-- First clock in which the special-function unit is free (R97), and the scratchpad port (R173). -/
  sfuFree  : Nat
  bankFree : Nat
  /-- Working and committed accumulator images (R245). -/
  work   : Acc
  commit : Acc
  sampler : Sampler
  /-- What a stall sample of the present clock finds before the clock's issue (R418), where one is due. -/
  snap : Option (Option SampleView)
  /-- Runs that have been stopped and of which memory records are still to be written (R421, R426). -/
  oldRuns : List Sampler
  /-- Power throttling (R442), and its changes: round and new state, the latest first. -/
  throttled : Bool
  slowLog : List (Nat × Bool)
  req : Option PreReq
deriving DecidableEq, Repr

def Quad.init : Quad :=
  { clock := 0, seen := 0, win := [.empty, .empty, .empty, .empty], cur := none, issued := false, heldAt := none, outSnap := none, fetch := none,
    sfuFree := 0, bankFree := 0, work := Acc.init, commit := Acc.init, sampler := Sampler.off, snap := none,
    oldRuns := [], throttled := false, slowLog := [], req := none }

/-- A resurvey pass of a core, from the start of its drain to its end (R358). -/
inductive Survey where
  | none | draining
deriving DecidableEq, Repr

/-- A core: partition entry (R402), tag table (R201), instruction cache (R177), bank-hash keys per bank set
(R172), shared units (R176), resurvey state (R358, R360). -/
structure Core where
  own0 : BitVec 16
  own1 : BitVec 16
  own2 : BitVec 16
  own3 : BitVec 16
  div  : Nat
  tags   : NMap Dword
  icache : NMap (List Word)
  /-- Cached lines in the order in which they were filled, the oldest first: line key, first bank of the filling set. -/
  icOrder : List (Nat × Nat)
  keys   : NMap (BitVec 16)
  /-- The round in which the tag table, the alias-table unit and the Hadamard unit are free, and the warps that wait for the
  latter two, in the order in which their requests issued (R176, R204). -/
  tagFree   : Nat
  aliasFree : Nat
  hadFree   : Nat
  aliasQ : List Nat
  hadQ   : List Nat
  survey  : Survey
  /-- Core clocks of scanning that remain of a pass (R358). -/
  scanLeft : Nat
  service : Bool
  /-- Number of the last pass that began, and that passed (R359). -/
  begun  : Nat
  passed : Nat
deriving DecidableEq, Repr

def Core.init : Core :=
  { own0 := 0xFFFF, own1 := 0xFFFF, own2 := 0xFFFF, own3 := 0xFFFF, div := 4, tags := [], icache := [], icOrder := [],
    keys := [], tagFree := 0, aliasFree := 0, hadFree := 0, aliasQ := [], hadQ := [], survey := .none, scanLeft := 0, service := true, begun := 0,
    passed := 0 }

/-- A register write that an operation in flight makes when it ends; keys as in `Warp`. -/
inductive RegW where
  | hold (key : Nat) (v : Word)
  | near (key : Nat) (v : Word)
  | uni  (key : Nat) (v : Word)
deriving DecidableEq, Repr

/-- A memory sample taken when its instruction completes (R420). -/
structure MemSample where
  /-- `CLOCK` at the start of the sampler's run that took it. -/
  run   : Nat
  pc    : Dword
  act   : Mask
  last  : Nat
  sect  : Nat
  lines : Nat
  rpl   : Nat
  clk   : Nat
deriving DecidableEq, Repr

/-- What an operation in flight is, and so which row of the table ends it. -/
inductive FKind where
  | sfu | load | atomic | tagq | matrix | thset | emulate | closure | store | thdrop | watch
deriving DecidableEq, Repr

/-- What a closure instruction asks of the closure's home (R297): a descriptor, bytes, or parities by lane. -/
inductive CloOp where
  | init (c : Word)
  | expect (c : Word)
  | arrive
  | wait (par : Mask)
  | test (pd : BitVec 3) (par : Mask)
deriving DecidableEq, Repr

/-- A captured closure operation: the address form and t of R297, the guard-true lanes. -/
structure CloReq where
  op : CloOp
  x  : Bool
  t  : Nat
  g  : Mask
deriving DecidableEq, Repr

/-- An operation in flight. -/
structure Flight where
  id    : Nat
  kind  : FKind
  gw    : Nat
  /-- The threads it belongs to, and their parcel: device, `LSEQ`, `PSEQ`. -/
  mask  : Mask
  own   : Nat × Word × Nat
  iss   : Issue
  /-- The quadrant clock before which it cannot end (R97, R192, R204, R255); `exact`: it ends in that clock. -/
  due   : Nat
  exact : Bool
  /-- Registers it writes; a `RegW` with the old value never appears. -/
  writes : List RegW
  /-- Ends in a kill with this cause (R354), met by these lanes; 0 for none. -/
  kill : Byte
  killed : Mask
  /-- The strand entry of the lowest thread when it issued (`SPC` of R211). -/
  spc : Dword
  /-- Held writes and swaths it waits behind (R389, R399): numbers of held writes; (CXL?, swath). -/
  behind : List Nat
  swaths : List (Bool × Nat)
  /-- Sectors of a read that stalled on a swath, which meet any mark made meanwhile (R400). -/
  sects  : List Nat
  /-- The closure operation that its end performs (R297). -/
  clo : Option CloReq
  /-- The strand that issued a spot run has sealed (R245); the run registers it will write (R281). -/
  sealed : Bool
  spot   : Option (Dword × Word × Word)
  sample : Option MemSample
deriving DecidableEq, Repr

/-- What an engine job does (R306). -/
inductive JKind where
  | cpyIn | cpyOut | gath | coll
deriving DecidableEq, Repr

inductive JState where
  | queued | running | parked
deriving DecidableEq, Repr

/-- An engine job with its captured operand record (R307, R221). -/
structure Job where
  id    : Nat
  tract : Nat
  kind  : JKind
  gw    : Nat
  mask  : Mask
  pc    : Dword
  spc   : Dword
  vdev  : Nat
  lseq  : Word
  pseq  : Nat
  jseq  : Word
  handle : Word
  entry  : List Dword
  ientry : List Dword
  /-- Scratchpad address: core, and offset in its bank set. -/
  sCore : Nat
  sOff  : Nat
  /-- Memory keys of the scratchpad region, and of the closure if there is one; its core and offset. -/
  sKey  : Nat
  clo   : Option (Nat × Nat × Nat)
  e0 : Nat
  e1 : Nat
  c0 : Int
  cs : List Int
  /-- Words 0..3 of the record's coordinates (R212). -/
  coord : List Word
  /-- `GATH`: the memory key of its index vector's `BASE`, and the index values, read when it starts (R310); descriptor of
  `COLL` (R431). -/
  ik   : Nat
  idx  : List Word
  desc : List Dword
  state : JState
  /-- Elements reached, those held back on a footprint, half-bytes performed, bytes subtracted from `PEND` (R315). -/
  next  : Nat
  back  : List Nat
  moved : Nat
  subbed : Nat
  /-- `FSEQ` of its page fault (R221). -/
  fseq : Word
  /-- Members whose contributions have landed; this member's own has been sent; its flits that no peer has acknowledged yet, each as
  its port and number (R432, R433). -/
  landed : List Nat
  sent   : Bool
  flits  : List (Nat × BitVec 24)
  /-- A staging box of its parcel (R336): index, else none. -/
  box : Option Nat
deriving DecidableEq, Repr

/-- The job's own flits have been acknowledged (R433). -/
def Job.acked (j : Job) : Bool := j.sent && j.flits.isEmpty

/-- A contract (R404) with the front-end registers of its device. -/
structure Contract where
  vdev : Nat
  qres : BitVec 16
  bwh : Nat
  bwc : Nat
  fqlog : Nat
  dbg  : Bool
  stop : Bool
  v    : Bool
  ptroot : Dword
  ttbase : Dword
  fqbase : Dword
  phndl  : Dword
  pbud : Word
  wdog : Word
  savea : Dword
  qtab  : Dword
  slice : Word
  fseqc : Word
  lseql : Word
  drop  : Word
  /-- Issue rights (R409), pending bitmap (R406). -/
  rights  : Bool
  pending : Word
  /-- A live migration has stopped the device, and its transfer has not been sent yet (R411, R412). -/
  moving  : Bool
  /-- Debug block (R413), debugger attached (R410). -/
  debug    : NMap Dword
  attached : Bool
  /-- Remote windows, dword `k` of window `j` at `3 * j + k` (R429). -/
  windows : NMap Dword
  /-- Ethernet binding (R436). -/
  ethPort : Dword
  ethMac  : Dword
  ethTag  : Dword
deriving DecidableEq, Repr

def Contract.init : Contract :=
  { vdev := 0, qres := 0, bwh := 0, bwc := 0, fqlog := 0, dbg := false, stop := false, v := false,
    ptroot := 0, ttbase := 0, fqbase := 0, phndl := 0, pbud := 0, wdog := 0, savea := 0, qtab := 0,
    slice := 0, fseqc := 0, lseql := 0, drop := 0, rights := false, pending := 0, moving := false, debug := [],
    attached := false, windows := [], ethPort := 0, ethMac := 0, ethTag := 0 }

/-- States of a parcel (R337), with ENDED (R341). -/
inductive PState where
  | waiting | ready | staging | running | done | settled | ended
deriving DecidableEq, Repr

/-- A parcel of a launch (R331) and its progress. -/
structure Parcel where
  pseq   : Nat
  state  : PState
  nwp    : Nat
  wfirst : Nat
  ncore  : Nat
  qpc    : Nat
  early  : Bool
  preds  : List Nat
  wcet   : Nat
  ssize  : Nat
  sbase  : Nat
  tbase  : Nat
  tcount : Nat
  accv   : BitVec 16
  acc    : Dword
  boxes  : List (List Dword)
  /-- Placement: for each core of the parcel, its number and the first quadrant it uses there (R340). -/
  place : List (Nat × Nat)
  /-- Its local quadrants in order, each with the quadrant it has (R331, R340). -/
  quadsAt : List (Nat × Nat)
  /-- It was running in a saved image, and its next start resumes it (R352). -/
  resumed : Bool
  triggered : Bool
  kills : Nat
  cause : Byte
  /-- Quadrant clocks run (R339), progress counter (R361). -/
  clocks   : Nat
  progress : Nat
  /-- Issued clocks per local quadrant, and idle ones (R342). -/
  busy : NMap Nat
  idle : NMap Nat
  /-- For each core it ran on, the number of the pass begun at its last issue there (R359). -/
  ranOn : NMap Nat
  /-- Its sections of the saved image (R348, R352): scratchpad bytes by memory key, tag entries keyed `256 * core + k`,
  accumulators by quadrant. -/
  imgScr  : NMap Byte
  imgTags : NMap Dword
  imgAcc  : NMap Acc
  /-- Quadrants whose bank set, tags and accumulator are in the image whole, as they stand when it is next needed
  (R350). -/
  imgFull : List Nat
  /-- Cores that drain with the parcel's extent in place, which the image takes whole (R351). -/
  imgExt : List Nat
  /-- Cores whose state of the parcel has gone to the image with no saved warp there: its warps on the core have all exited (R350). -/
  imgOut : List Nat
deriving DecidableEq, Repr

/-- An accepted launch (R328, R330). -/
structure Launch where
  vdev : Nat
  lseq : Word
  cls  : Nat
  replay   : Bool
  relaunch : Bool
  image : Dword
  budget : Nat
  compl  : Dword
  cqlog  : Nat
  ident  : Word
  rseq   : Nat
  /-- `BUSY` of the header; a saved image (R330). -/
  busyT  : Dword
  resume : Bool
  /-- Policy clocks counted against the budget, and since acceptance. -/
  used  : Nat
  clk   : Nat
  key   : BitVec 16
  edit  : Bool
  /-- What its saved image holds has changed since the image was last written (R352, R417). -/
  stale : Bool
  rmode : Nat
  groups  : NMap Dword
  parcels : List Parcel
  /-- Estimate of the largest path (R339). -/
  est : Nat
  /-- Launch DONE, SETTLED or ENDED already written (R341). -/
  doneW    : Bool
  settledW : Bool
  endedW   : Bool
deriving DecidableEq, Repr

/-- A saved warp: the slot it returns to, its state as it resumes (R350). -/
structure Saved where
  gw   : Nat
  warp : Warp
deriving DecidableEq, Repr

/-- The batch of the lanes that stopped for one cause (R218): its record so far, with the number that the record took at
the stop, if the instruction stopped threads for several causes (R210). -/
structure FaultBatch where
  cause : Byte
  /-- The lanes that park on it, and `MASK` of its record: the lanes that caused the stop (R246). -/
  lanes : Mask
  rmask : Mask
  spc   : Dword
  pages : List Dword
  ovr   : Bool
  runa  : Bool
  fseq  : Option Word
deriving DecidableEq, Repr

/-- The run-ahead set of a warp (R216): its lanes, the faulting instruction and its batches, and the shadow warp with the
poisoned registers. -/
structure Run where
  lanes : Mask
  pc    : Dword
  since : Nat
  count : Nat
  fpc   : Dword
  batches : List FaultBatch
  shadow : Warp
  /-- Poisoned registers: level tag and key (0 hold, 1 near, 2 latch, 3 uniform, 4 predicate `32 * r + lane`). -/
  poison : List (Nat × Nat)
deriving DecidableEq, Repr

/-- An entry of a die's translation cache (R386). -/
structure Tlb where
  die  : Nat
  vdev : Nat
  page : Nat
  big  : Bool
  pte  : Dword
deriving DecidableEq, Repr

/-- An invalidation in progress (R387): the page, whether it is that of a level-2 entry, and what a walk gave before the
change, which stays in force: the leaf and whether it maps 32 MiB, or a cause. Of an entry that names a table: its level, 1 or 2, its
address, and the entry as it was, which every walk still reads. -/
structure Inval where
  vdev  : Nat
  page  : Dword
  big   : Bool
  old   : Option (Dword × Bool)
  cause : Byte
  table : Option (Nat × Nat × Dword)
deriving DecidableEq, Repr

/-- A held write (R389), or one stalled on a swath (R399): the bytes, or an atomic to perform. -/
structure Held where
  id   : Nat
  /-- Number of the first held write of its instruction. -/
  grp  : Nat
  vdev : Nat
  va   : Dword
  /-- The memory key that its address named when it came: the same bytes have one place under every address (R187). -/
  key  : Nat
  data : List Byte
  /-- An atomic: operation, width, operand, compare value. -/
  atom : Option (AtomOp × Width × Dword × Dword)
  /-- Where an atomic's old value goes. -/
  dst : Dst
  /-- The slot it issued from, the warp's number in its image, and the lane; lane 32: a party outside the warps, whose die stands for
  the slot (R364). -/
  gw    : Nat
  num   : Nat
  lane  : Nat
  pc    : Dword
  spc   : Dword
  lseq  : Word
  pseq  : Nat
  /-- Its replay failed under the record with this `FSEQ`. -/
  fseq  : Option Word
  swath : Option (Bool × Nat)
  /-- A record or header write of this quadrant's sampler (R421). -/
  smp : Option Nat
deriving DecidableEq, Repr

/-- States of a tier's replat (R396). -/
inductive PlatSt where
  | idle | evacuating | moving
deriving DecidableEq, Repr

/-- One of the two interleaved tiers (R380, R391 to R399). -/
structure Tier where
  st    : PlatSt
  phase : Nat
  limit : Nat
  units : Word
  /-- Plat table in force under P, and under P+1 while moving (R391). -/
  plat  : List Nat
  platN : List Nat
  /-- Lines of each unit (R393). -/
  sizes : NMap Nat
  failing : Option Nat
  queued  : List Nat
  /-- Swaths not yet completed while moving: all below `swaths` but those of `done`; those in flight. -/
  swaths   : Nat
  doneSw   : List Nat
  inFlight : List Nat
  nextRead : Nat
  /-- The near-tier address of each such swath's staging area (R398). -/
  stage    : NMap Nat
deriving DecidableEq, Repr

/-- A frame (R390). -/
structure Frame where
  tier : Nat
  addr : Nat
  big  : Bool
deriving DecidableEq, Repr

/-- What leaves the package or reaches Larkar, in order: the observable outputs. -/
inductive Out where
  /-- A record for Larkar's queue, tagged with its device (R210). -/
  | larkar (vdev : Nat) (rec : List Dword)
  /-- A failing last stack (R396); a lost sector read by a party outside any parcel (R400). -/
  | larkarNote (kind val : Nat)
  /-- An answer to the host (R406, R378); none: a poisoned completion (R400). -/
  | hostData (data : Option (List Byte))
  /-- A request to a peer through a window (R430). -/
  | remote (peer : BitVec 16) (pvdev : Nat) (k : RemoteKind) (va : Dword) (data : List Byte)
  /-- An answer to a peer: none when the request could not be performed (R430). -/
  | remoteAnswer (peer : BitVec 16) (data : Option (List Byte))
  /-- A contribution of a collective to a member (R432). -/
  | coll (peer : BitVec 16) (pvdev : Nat) (cid : Word) (data : List Byte)
  /-- A flit retried (R428). -/
  | retry (port : Nat) (seq : BitVec 24)
  /-- A mailbox, SPDM, storage or partition answer. -/
  | mailbox (ok : Bool)
  | spdm (msg : List Byte)
  /-- Pages copied to a migration target (R411), with the sectors of 32 bytes that could not be read (R400). -/
  | page (vdev : Nat) (va : Dword) (data : List Byte) (lost : List Nat)
  /-- The saved image, as it stands in the device's memory at `SAVEA` (R411 step 3). -/
  | image (vdev : Nat) (at_ : Dword)
  /-- The transfer (R412): the three counts, the queue descriptors, the pending bitmap, the tensor table. The job section goes
  with the image. -/
  | transfer (vdev : Nat) (fseqc lseql drop : Word) (queues : List Dword) (pend : Word) (table : List (List Dword))
  /-- A flit sent on a port, with its number (R428). -/
  | flit (port : Nat) (seq : BitVec 24)
deriving DecidableEq, Repr

/-- A Fythes port (R428): its peer (0 for none), whether it works, the next number expected of the peer's flits, and the
number of the next flit that it sends. -/
structure Port where
  peer : BitVec 16
  ok   : Bool
  seq  : BitVec 24
  tx   : BitVec 24
deriving DecidableEq, Repr

def Port.init : Port := { peer := 0, ok := true, seq := 0, tx := 0 }

/-- What comes to the part from outside its own scheduling: from the host, peers, the debugger, storage, the owner and the
environment, and from Larkar and the policy core, whose firmware the spec leaves to itself. Each has the name and the operands of
its row of the opcode table. -/
inductive Input where
  | launchRecord (src : Source) (rec : List Dword)
  | kick (vdev n : Nat) (tail : BitVec 16)
  /-- A write of a device's kick page, before the front end has decoded it: offset, size in bytes, data (R406). -/
  | kickWrite (vdev off n : Nat) (data : Dword)
  | launchFrame (port : Nat) (mac : BitVec 48) (payload : List Dword)
  | hostWrite (vdev : Nat) (va : Dword) (data : List Byte)
  | hostRead (vdev : Nat) (kickPage : Bool) (va : Dword) (n : Nat)
  /-- The report of a storage transfer, which waits for the writes with these numbers (R437). -/
  | nvmeReport (ids : List Nat) (ok : Bool)
  | nvmeTransfer (port : Nat) (toDevice : Bool) (block : Nat) (vdev : Nat) (va : Dword) (n : Nat)
  | debuggerAttach (vdev : Nat)
  | haltGroup (vdev : Nat) (lseq : Word) (g : Nat)
  | edit (w : Nat) (e : Edit)
  | releaseGroup (vdev : Nat) (lseq : Word) (g : Nat)
  | releaseThread (vdev : Nat) (fseq : Word)
  | pageService (vdev : Nat) (fseq : Word) (leaves : List (Dword × Dword)) (ok : Bool)
  | invalidatePage (vdev : Nat) (va : Dword) (entry : Option Dword)
  /-- Larkar changes the entry of level 1 or 2 that names a table on an address's path, and invalidates the page (R387). -/
  | tableEntry (vdev : Nat) (va : Dword) (top : Bool) (entry : Dword)
  | migrationCopyDone (vdev : Nat) (va : Dword) (tier : BitVec 2) (frame : BitVec 48)
  | frameFree (tier : BitVec 2) (frame : BitVec 48) (big : Bool)
  | unitFailing (cxl : Bool) (unit : Nat)
  | evacuationDone (cxl : Bool)
  | partitionWrite (core : Nat) (own div : Dword)
  | contractWrite (c : List Dword)
  | registerWrite (vdev : Nat) (r : FeReg) (v : Dword)
  | sliceEnd (vdev : Nat)
  | sliceStart (vdev : Nat)
  | precopyRound (vdev : Nat) (pages : List Dword)
  | migrationStop (vdev : Nat)
  | migrationResume (c : List Dword) (queues : List (Dword × Dword)) (pend : Word) (rec : List Dword)
  | translationWalkDone (die vdev : Nat) (va : Dword)
  | flitReceived (port : Nat) (seq : BitVec 24) (good : Bool)
  /-- The peer on a port has acknowledged the port's flits up to a number (R433), or asks for them again from a number on (R428). -/
  | flitAck (port : Nat) (seq : BitVec 24)
  | flitRetry (port : Nat) (seq : BitVec 24)
  | portFailure (port : Nat)
  | remoteRequest (peer : BitVec 16) (vdev : Nat) (k : RemoteKind) (va : Dword) (n : Nat) (data : List Byte)
  | collContribution (tract job member : Nat) (data : List Byte)
  /-- A contribution to a member on this package, on its way to the member's job (R432). -/
  | collLocal (vdev : Nat) (cid : Word) (member : Nat) (data : List Byte)
  /-- An error of the hardware: a word's horizontal parity no longer agrees, by the number of `Machine/Ops.lean` (R356), or a sector of the device tiers can no longer be
  corrected (R400). -/
  | wordError (word : Nat)
  | sectorError (sector : Nat)
  | setPwrlim (watts : Nat)
  /-- The owner's Larkar configuration extends one of `MSMT4` to `MSMT7` (R439). -/
  | larkarMeasure (i : BitVec 2) (digest : List Byte)
  | ownershipTransfer (sig : List Byte)
  | ownerInstall (key sig : List Byte)
  | getVersion
  | getCapabilities
  | negotiateAlgorithms (sm2 sm3 : Bool)
  | getDigests
  | getCertificate (slot : Nat)
  | challenge (nonce : List Byte)
  | getMeasurements (index : Option (BitVec 3))
  | powerOnReset (images : List BootImage)
  | coolantFault (milliCelsius millilitres : Nat)
  | junctionOvertemp (celsius : Nat)
  | powerThrottle (q : Nat) (on : Bool)
deriving DecidableEq, Repr

/-- The party outside whose accesses stay in order: the host is 0, a peer one more than its identifier (R378, R430). -/
def Input.party : Input → Option Nat
  | .kick _ _ _ | .hostWrite _ _ _ | .hostRead _ _ _ _ => some 0
  | .remoteRequest p _ _ _ _ _ => some (p.toNat + 1)
  | _ => none

/-- The whole package. Quadrant `q` is `((die * 12 + tract) * 4 + core) * 4 + quad`; core `q / 4`; tract
`q / 16`; die `q / 192`; the warp in slot `w` of quadrant `q` is `16 * q + w`. -/
structure State where
  /-- Steps taken; policy-core clocks (R11); the scheduled inputs, each with the step at which it comes. -/
  tick  : Nat
  /-- Clocks of the quadrants' nominal rate that have passed (R3). -/
  round : Nat
  pclk  : Nat
  sched : List (Nat × Input)
  /-- The set that is issuing, which `exec` acts for. -/
  iss : Issue
  /-- Whose clock comes next: 0, the units outside the quadrants; q + 1, quadrant q. -/
  turn : Nat
  /-- Number of the next operation in flight, job or held write; counter of free values. -/
  nextId  : Nat
  freeCtr : Nat
  outbox  : List Out
  /-- All memory (see `Machine/Ops.lean` for the keys); words with bad parity (R357), device sectors that
  cannot be corrected (R400), sectors with a lost mark (R400). -/
  mem    : List Host.Cell
  badW   : List Nat
  /-- Words with bad parity that the walk has found to be past repair (R357). -/
  walked : List Nat
  badSec : List Nat
  lost   : List Nat
  warps : NMap Warp
  /-- Warp slots in use. -/
  resident : List Nat
  quads : NMap Quad
  cores : NMap Core
  flights : List Flight
  jobs  : List Job
  runs  : NMap Run
  contracts : NMap Contract
  launches  : List Launch
  saved     : List Saved
  /-- Engine jobs that stand in saved images, in queue order (R319, R350). -/
  savedJobs : List Job
  larkarQ   : List (Nat × List Dword)
  tlbs : List Tlb
  held : List Held
  /-- Invalidations in progress, in the order in which they began (R387). -/
  inval : List Inval
  hbm : Tier
  cxl : Tier
  /-- Frames waiting for the scrub, and frames allocated: every other frame is in the clean pool (R390). -/
  scrub : List Frame
  used  : List Frame
  /-- Accesses and services from outside that have arrived and wait, in order of arrival (R378, R389, R390, R399, R407). -/
  extQ  : List Input
  /-- The policy core's tightly coupled memory (R1). -/
  polMem : NMap Byte
  ports : NMap Port
  nvme  : NMap Byte
  /-- Boot and attestation (R438 to R441). -/
  booted : Bool
  bootSrc : Nat
  /-- The images in flash and on the boot server, from which every reset boots: those of the last power-on (R438, R441). -/
  bootImgs : List BootImage
  msmt : NMap (List Byte)
  ownerKey : List Byte
  /-- An owner has been installed since the last transfer. -/
  owned : Bool
  transfer : Bool
  spdmVersion : Bool
  spdmCaps : Bool
  spdmAlgs : Bool
  /-- `PWRLIM` in force and the one waiting (R442); coolant outside its limits; PCIe link; part stopped. -/
  pwrlim  : Nat
  pwrNext : Option Nat
  /-- Launches admitted before the waiting limit (R442): device and `LSEQ`. -/
  pwrOld  : List (Nat × Word)
  coolantBad : Bool
  /-- Changes of the coolant fault: round and new state, the latest first. -/
  coolantLog : List (Nat × Bool)
  pcieUp  : Bool
  stopped : Bool
  /-- Next core of each die's rotation (R358) and policy clock of the next pass. -/
  rotate : NMap Nat
deriving DecidableEq, Repr

/-- The HBM4E tier at boot: sixteen stacks of 48 GB, entry e naming stack e mod 16 (R392, R393). -/
def Tier.bootHbm : Tier :=
  { st := .idle, phase := 0, limit := 366210, units := 0xFFFF,
    plat := (List.range 256).map (fun e => e % 16), platN := [],
    sizes := (List.range 16).map (fun u => (u, 375000000)), failing := none, queued := [], swaths := 0,
    doneSw := [], inFlight := [], nextRead := 0, stage := [] }

/-- Entries that the i-th of n present ports gets in the boot table. -/
def bootShare (n i : Nat) : Nat := ((List.range 256).filter (fun e => e % n == i)).length

/-- The CXL tier at boot, from the lines of the expander on each port, 0 for a port with none: entry e names the e-th
port of the repeating ascending list of the present ports (R382, R392, R393). -/
def Tier.bootCxlOf (lines : Nat → Nat) : Tier :=
  let ports := (List.range 32).filter (fun p => lines p != 0)
  let n := ports.length
  { st := .idle, phase := 0,
    limit := match (List.range n).map (fun i => lines (ports.getD i 0) / (64 * bootShare n i)) with
      | [] => 0
      | x :: xs => xs.foldl min x,
    units := BitVec.ofNat 32 (ports.foldl (fun a p => a + 2 ^ p) 0),
    plat := if n = 0 then [] else (List.range 256).map (fun e => ports.getD (e % n) 0),
    platN := [], sizes := ports.map (fun p => (p, lines p)), failing := none,
    queued := [], swaths := 0, doneSw := [], inFlight := [], nextRead := 0, stage := [] }

/-- The CXL tier at boot with the expanders that stand on the ports of this part, at most 128 GB each (R382). -/
def Tier.bootCxl : Tier := Tier.bootCxlOf (fun p => min (Config.cxlLines p) (10 ^ 9))

/-- The part right after power-on reset: no contract, no launch, no warp, every clock at 0, memory with
nothing listed, both tiers idle at phase 0. -/
def State.reset : State :=
  { tick := 0, round := 0, pclk := 0, sched := [], iss := Issue.none, turn := 0, nextId := 2, freeCtr := 0, outbox := [],
    mem := [], badW := [], walked := [], badSec := [], lost := [], warps := [], resident := [], quads := [], cores := [],
    flights := [], jobs := [], runs := [], contracts := [], launches := [], saved := [], savedJobs := [], larkarQ := [],
    tlbs := [], held := [], inval := [], hbm := Tier.bootHbm, cxl := Tier.bootCxl, scrub := [], used := [], extQ := [], polMem := [],
    ports := [], nvme := [], booted := false, bootSrc := 0, msmt := [], ownerKey := [], owned := false,
    bootImgs := [], transfer := false, spdmVersion := false, spdmCaps := false, spdmAlgs := false, pwrlim := 2600,
    pwrNext := none, pwrOld := [], coolantBad := false, coolantLog := [], pcieUp := true, stopped := false, rotate := [] }

end Sys2Proof.Machine
end

