-- ==== Sys2Proof/Machine/Ops.lean ====
section
/-! DEFINITION. The named operations over memory and registers: where each register and byte lives, bank
sets and extents (R171, R190, R191), translation (R383 to R387), parity and lost sectors (R357, R400), the
fault record (R209 to R212), taking an exception as one operation (R206, R222) and the return from one
(R224). -/

namespace Sys2Proof.Machine

/-- What a meaning answers. -/
abbrev Res := Host.Outcome State Fault Refusal

/-- An event of the part: the state after it, or none while it is not due. One that is not due does not take place, and the
state is the same (assumption 14). -/
def State.after (s : State) (e : Option State) : Res := .next (e.getD s)

/-! ### Where things are -/

/-- The warp a set belongs to: 16 slots in each quadrant (R158). -/
def Issue.gw (i : Issue) : Nat := 16 * i.quad + i.slot

def coreOfQuad (q : Nat) : Nat := q / 4
def tractOfCore (c : Nat) : Nat := c / 4
def dieOfCore (c : Nat) : Nat := c / 48
def dieOfQuad (q : Nat) : Nat := q / 192
def quadOfWarp (gw : Nat) : Nat := gw / 16

/-- I/O die A, where the front end and Larkar stand, and I/O die B, where the host does (R364). -/
def dieA : Nat := 8
def dieB : Nat := 9

def State.warp (s : State) (gw : Nat) : Warp := NMap.get Warp.init s.warps gw
def State.quad (s : State) (q : Nat) : Quad := NMap.get Quad.init s.quads q
def State.core (s : State) (c : Nat) : Core := NMap.get Core.init s.cores c
def State.contract (s : State) (v : Nat) : Contract := NMap.get Contract.init s.contracts v

def State.setWarp (s : State) (gw : Nat) (w : Warp) : State :=
  { s with warps := NMap.set Warp.init s.warps gw w }
def State.setQuad (s : State) (q : Nat) (x : Quad) : State :=
  { s with quads := NMap.set Quad.init s.quads q x }
def State.setCore (s : State) (c : Nat) (x : Core) : State :=
  { s with cores := NMap.set Core.init s.cores c x }
def State.setContract (s : State) (v : Nat) (x : Contract) : State :=
  { s with contracts := NMap.set Contract.init s.contracts v x }

def Warp.thread (w : Warp) (l : Nat) : Thread := NMap.get Thread.init w.threads l
def Warp.setThread (w : Warp) (l : Nat) (t : Thread) : Warp :=
  { w with threads := NMap.set Thread.init w.threads l t }

/-- Change the threads of a mask, in ascending lane order. -/
def Warp.mapThreads (w : Warp) (m : Mask) (f : Nat → Thread → Thread) : Warp :=
  (laneList m).foldl (fun w l => w.setThread l (f l (w.thread l))) w

/-- A fresh number for an operation in flight. -/
def State.fresh (s : State) : State := { s with nextId := s.nextId + 1 }

/-- A free value, and the counter advanced (Config.freeValue). -/
def State.free (s : State) : State × Dword :=
  ({ s with freeCtr := s.freeCtr + 1 }, Config.freeValue s.freeCtr)

/-- Bytes that the spec leaves free. -/
def State.freeBytes (s : State) (n : Nat) : State × List Byte :=
  ({ s with freeCtr := s.freeCtr + (n + 7) / 8 },
   (((List.range ((n + 7) / 8)).map (fun i => leBytes 8 (Config.freeValue (s.freeCtr + i)).toNat)).flatten).take n)

def State.emit (s : State) (o : Out) : State := { s with outbox := s.outbox ++ [o] }

/-! ### Registers -/

def Warp.getHold (w : Warp) (l r : Nat) : Word := NMap.get 0 w.hold (256 * l + r)
def Warp.getNear (w : Warp) (l r : Nat) : Word := NMap.get 0 w.near (16 * l + r)
def Warp.getLatch (w : Warp) (l k : Nat) : Dword := NMap.get 0 w.latch (4 * l + k)
def Warp.getUni (w : Warp) (r : Nat) : Word := NMap.get 0 w.uni r
/-- Written bits of a near register, valid bits of a latch (R34, R30). -/
def Warp.nearWritten (w : Warp) (r : Nat) : Mask := NMap.get 0 w.nearW r
def Warp.latchValid (w : Warp) (k : Nat) : Mask := NMap.get 0 w.latchV k
/-- A rejoin mask (R27). -/
def Warp.getJ (w : Warp) (j : Nat) : Mask := NMap.get 0 w.rejoin j
/-- Predicate lanes; `p7` is true in every lane (R26). -/
def Warp.predMask (w : Warp) (p : Nat) : Mask := if p = 7 then BitVec.allOnes 32 else NMap.get 0 w.pred p
def Warp.getPred (w : Warp) (l p : Nat) : Bool := hasLane (w.predMask p) l

def Warp.setHold (w : Warp) (l r : Nat) (v : Word) : Warp :=
  { w with hold := NMap.set 0 w.hold (256 * l + r) v }
/-- A write of a near register sets its written bit in the lane (R34). -/
def Warp.setNear (w : Warp) (l r : Nat) (v : Word) : Warp :=
  { w with near := NMap.set 0 w.near (16 * l + r) v,
           nearW := NMap.set 0 w.nearW r (w.nearWritten r ||| laneBit l) }
def Warp.setUni (w : Warp) (r : Nat) (v : Word) : Warp := { w with uni := NMap.set 0 w.uni r v }
def Warp.setJ (w : Warp) (j : Nat) (v : Mask) : Warp := { w with rejoin := NMap.set 0 w.rejoin j v }
/-- A write of a predicate mask; a write to `p7` has no effect (R26). -/
def Warp.setPredMask (w : Warp) (p : Nat) (v : Mask) : Warp :=
  if p = 7 then w else { w with pred := NMap.set 0 w.pred p v }
/-- Write a predicate in the lanes of `m` only. -/
def Warp.setPredIn (w : Warp) (p : Nat) (m v : Mask) : Warp :=
  w.setPredMask p ((w.predMask p &&& ~~~ m) ||| (v &&& m))

/-- All four latches of the lanes of `m` become invalid (R30). -/
def Warp.loseLatches (w : Warp) (m : Mask) : Warp :=
  { w with latchV := [0, 1, 2, 3].foldl (fun n k => NMap.set 0 n k (NMap.get 0 n k &&& ~~~ m)) w.latchV }

/-- All sixteen written bits of the lanes of `m` are cleared (R34). -/
def Warp.loseNear (w : Warp) (m : Mask) : Warp :=
  { w with nearW := (List.range 16).foldl (fun n k => NMap.set 0 n k (NMap.get 0 n k &&& ~~~ m)) w.nearW }

/-- The latches shift: k4 := k3, k3 := k2, k2 := k1 in every lane of the set, and the new k1 is valid in the
lanes of `g` (R13, R30). `vals` gives the new k1 of each lane of `g`. -/
def Warp.shiftLatches (w : Warp) (set g : Mask) (vals : Nat → Dword) : Warp :=
  let mv (n : NMap Dword) (l : Nat) : NMap Dword :=
    let n := NMap.set 0 n (4 * l + 3) (NMap.get 0 n (4 * l + 2))
    let n := NMap.set 0 n (4 * l + 2) (NMap.get 0 n (4 * l + 1))
    let n := NMap.set 0 n (4 * l + 1) (NMap.get 0 n (4 * l))
    if hasLane g l then NMap.set 0 n (4 * l) (vals l) else n
  let v (k : Nat) : Mask := w.latchValid k
  let keep (old new : Mask) : Mask := (old &&& ~~~ set) ||| (new &&& set)
  { w with
    latch := (laneList set).foldl mv w.latch,
    latchV := NMap.set 0 (NMap.set 0 (NMap.set 0 (NMap.set 0 w.latchV 3 (keep (v 3) (v 2)))
      2 (keep (v 2) (v 1))) 1 (keep (v 1) (v 0))) 0 (keep (v 0) g) }

/-- A register of the hold or near level in a lane, or of the uniform level. -/
def Warp.readReg (w : Warp) (l : Nat) : DReg → Nat → Word
  | .hold i, k => w.getHold l (i.toNat + k)
  | .near i, k => w.getNear l (i.toNat + k)
  | .uniform i, k => w.getUni (i.toNat + k)

def Warp.writeReg (w : Warp) (l : Nat) : DReg → Nat → Word → Warp
  | .hold i, k, v => w.setHold l (i.toNat + k) v
  | .near i, k, v => w.setNear l (i.toNat + k) v
  | .uniform i, k, v => w.setUni (i.toNat + k) v

/-- A 32-bit or 64-bit result into a register or an even-aligned pair (R23). -/
def Warp.writeVal (w : Warp) (l : Nat) (d : DReg) (wide : Bool) (v : Dword) : Warp :=
  if wide then (w.writeReg l d 0 (lo32 v)).writeReg l d 1 (hi32 v) else w.writeReg l d 0 (lo32 v)

/-- The register writes that make up such a result, for an operation in flight. -/
def regWrites (l : Nat) (d : DReg) (wide : Bool) (v : Dword) : List RegW :=
  let one (k : Nat) (x : Word) : RegW :=
    match d with
    | .hold i => .hold (256 * l + (i.toNat + k)) x
    | .near i => .near (16 * l + (i.toNat + k)) x
    | .uniform i => .uni (i.toNat + k) x
  if wide then [one 0 (lo32 v), one 1 (hi32 v)] else [one 0 (lo32 v)]

def Warp.applyW (w : Warp) : RegW → Warp
  | .hold k v => { w with hold := NMap.set 0 w.hold k v }
  | .near k v => { w with near := NMap.set 0 w.near k v }
  | .uni k v => { w with uni := NMap.set 0 w.uni k v }

/-- Near destinations set their written bits at issue (R34, R97). -/
def Warp.markNear (w : Warp) : RegW → Warp
  | .near k _ => { w with nearW := NMap.set 0 w.nearW (k % 16) (w.nearWritten (k % 16) ||| laneBit (k / 16)) }
  | _ => w

/-! ### Bytes of memory -/

/-- Memory keys: the tiers 0 (HBM4E), 1 (near), 2 (CXL) of R380, each 2^48 bytes, then the scratchpads, 8 MiB
for each core, addressed within the core by first bank times 131,072 plus the set's offset (R171). -/
def tierKey (tier addr : Nat) : Nat := tier * 2 ^ 48 + addr
def scrKey (core base off : Nat) : Nat := 3 * 2 ^ 48 + core * 2 ^ 23 + base * 131072 + off

/-- What a byte that nothing has written reads as: 0 (assumption 1). -/
def byte0 : Byte := 0

def State.byte (s : State) (k : Nat) : Byte := NMap.get byte0 s.mem k
def State.setByte (s : State) (k : Nat) (b : Byte) : State := { s with mem := NMap.set byte0 s.mem k b }

/-- `n` bytes from key `k`. -/
def State.bytes (s : State) (k : Nat) : Nat → List Byte
  | 0 => []
  | n + 1 => s.byte k :: s.bytes (k + 1) n

/-- Write bytes from key `k` upwards. -/
def State.setBytes (s : State) (k : Nat) : List Byte → State
  | [] => s
  | b :: bs => (s.setByte k b).setBytes (k + 1) bs

/-- An n-byte natural value, little-endian (R4). -/
def State.rd (s : State) (k n : Nat) : Nat := leNat (s.bytes k n)
def State.wr (s : State) (k n v : Nat) : State := s.setBytes k (leBytes n v)

/-- Every byte of memory is in canonical form. -/
def Memory.wf (m : List Host.Cell) : Bool := NMap.wf byte0 m

/-- Zero a range of memory (R390, R403). -/
def State.zero (s : State) (k n : Nat) : State := { s with mem := NMap.clear s.mem k n }

/-! ### Scratchpad -/

/-- The bank set that serves a quadrant of a core: first bank and number of banks (R171). -/
def bankSet (div quad : Nat) : Nat × Nat :=
  match div with
  | 0 => (0, 64)
  | 1 => if quad < 2 then (0, 32) else (32, 32)
  | 2 => if quad < 2 then (0, 32) else if quad = 2 then (32, 16) else (48, 16)
  | 3 => if quad = 0 then (0, 16) else if quad = 1 then (16, 16) else (32, 32)
  | _ => (16 * quad, 16)

/-- Bank and row of an offset in a set of `2^b` banks whose first is `base`, under a key (R172). -/
def bankRow (b base key a : Nat) : Nat × Nat :=
  let line := a / 16
  let low := line % 2 ^ b
  let row := line / 2 ^ b
  let km := 2 * bits key 15 13 + 1
  let y := (Nat.xor row (bits key 12 0) * km) % 2 ^ 13
  let g := Nat.xor (Nat.xor (bits y 5 0) (bits y 11 6)) (bits y 12 12)
  (base + Nat.xor low (g % 2 ^ b), row)

/-- The exponent of a set of 16, 32 or 64 banks. -/
def setLog (n : Nat) : Nat := if n = 64 then 6 else if n = 32 then 5 else 4

def State.setOf (s : State) (core quad : Nat) : Nat × Nat := bankSet (s.core core).div quad

/-- The launch and the parcel that a warp belongs to. -/
def State.launch? (s : State) (v : Nat) (l : Word) : Option Launch :=
  s.launches.find? (fun x => x.vdev == v && x.lseq == l)

def State.parcel? (s : State) (v : Nat) (l : Word) (p : Nat) : Option Parcel :=
  match s.launch? v l with
  | some x => x.parcels.find? (fun y => y.pseq == p)
  | none => none

/-- Change a launch in place. -/
def State.modLaunch (s : State) (v : Nat) (l : Word) (f : Launch → Launch) : State :=
  { s with launches := s.launches.map (fun x => if x.vdev == v && x.lseq == l then f x else x) }

def Launch.modParcel (x : Launch) (p : Nat) (f : Parcel → Parcel) : Launch :=
  { x with parcels := x.parcels.map (fun y => if y.pseq == p then f y else y) }

def State.modParcel (s : State) (v : Nat) (l : Word) (p : Nat) (f : Parcel → Parcel) : State :=
  s.modLaunch v l (fun x => x.modParcel p f)

/-- The bank set in which a parcel runs on a core: first bank and number of banks (R191, R340). -/
def State.parcelSet (s : State) (p : Parcel) (core : Nat) : Option (Nat × Nat) :=
  match p.place.find? (fun x => x.1 == core) with
  | some x => some (s.setOf core x.2)
  | none => none

/-- The memory key of `n` bytes at an offset on a core, when they lie in the parcel's bank set there and in its
declared extent (R190, R191); none is `EXTENT`. -/
def State.scratch (s : State) (w : Warp) (core off n : Nat) : Option Nat :=
  match s.parcel? w.vdev w.lseq w.pseq with
  | none => none
  | some p =>
    match s.parcelSet p core with
    | none => none
    | some (base, banks) =>
      if off + n ≤ banks * 131072 ∧ p.sbase ≤ off ∧ off + n ≤ p.sbase + p.ssize then
        some (scrKey core base off)
      else none

/-! ### Parity (R356, R357) -/

/-- Numbers of the words that are not in memory, past every memory word: a hold register of a warp, by its key, and the two words
of an entry of a core's tag table. -/
def holdWord (gw key : Nat) : Nat := 2 ^ 60 + 8192 * gw + key
def tagWord (core e : Nat) : Nat := 2 ^ 61 + 512 * core + 2 * e

/-- The group of 64 rows that a word belongs to, as a number: for a scratchpad word its bank and row under the set's
hash, with every word of a 16-byte row in one group; for a near-tier word its own address; of a hold file 64 registers of one
warp, of a tag table 64 entries (assumption 7). -/
def State.parityGroup (s : State) (word : Nat) : Nat :=
  let k := 4 * word
  if 2 ^ 61 ≤ word then 2 ^ 63 + (word - 2 ^ 61) / 128
  else if 2 ^ 60 ≤ word then 2 ^ 62 + (word - 2 ^ 60) / 8192 * 4 + word % 256 / 64
  else if k < 3 * 2 ^ 48 then 2 ^ 60 + k / 1024
  else
    let a := k - 3 * 2 ^ 48
    let core := a / 2 ^ 23
    let bank := (a % 2 ^ 23) / 131072
    let st := ([0, 1, 2, 3].map (fun q => s.setOf core q)).find? (fun x => x.1 ≤ bank && bank < x.1 + x.2)
    match st with
    | none => 0
    | some (base, n) =>
      let key := NMap.get 0 (s.core core).keys base
      let br := bankRow (setLog n) base key.toNat (a % 2 ^ 23 - base * 131072)
      (core * 64 + br.1) * 128 + br.2 / 64

/-- Some ranges of words, each a first word and a number of words, hold a word. -/
def inRanges (rs : List (Nat × Nat)) (w : Nat) : Bool := rs.any (fun r => decide (r.1 ≤ w) && decide (w < r.1 + r.2))

/-- No other word of its group has bad parity, so the engine can rebuild it (R357). -/
def State.repairable (s : State) (w : Nat) : Bool := s.badW.all (fun x => x == w || !(s.parityGroup x == s.parityGroup w))

/-- The walk has found a group to be past repair, and it is so still: the next read or store of any word of it reports that (R357,
assumption 7). -/
def State.foundDead (s : State) (g : Nat) : Bool :=
  s.walked.any (fun w => s.badW.contains w && s.parityGroup w == g && !(s.repairable w))

/-- Meet ranges of words: repair each bad one whose group holds no other; none when one cannot be repaired, or lies in a group that the
walk has found to be past repair (R357). -/
def State.meetAll (s : State) (rs : List (Nat × Nat)) : Option State :=
  if s.badW.isEmpty then some s
  else
    let ws := s.badW.filter (inRanges rs)
    if ws.all s.repairable &&
        !(!s.walked.isEmpty && rs.any (fun r => (List.range r.2).any (fun i => s.foundDead (s.parityGroup (r.1 + i))))) then
      some { s with badW := s.badW.filter (fun w => !(ws.contains w)) }
    else none

/-- Meet the words of `n` bytes at `k`. -/
def State.meetWords (s : State) (k n : Nat) : Option State := s.meetAll [(k / 4, (k + n - 1) / 4 + 1 - k / 4)]

/-! ### Translation (R383 to R387) -/

/-- What a line's translation gives: a memory key, whether the page is in migration, the entry; a window; or a
cause. -/
inductive TRes where
  | ok (key : Nat) (mig : Bool)
  | window (j : Nat)
  | fault (cause : Byte)
deriving DecidableEq, Repr

def cPageNotPresent : Byte := 0x10
def cPageProtection : Byte := 0x11
def cReplatLost : Byte := 0x12
def cUncorrectable : Byte := 0x13

def pteP (e : Dword) : Bool := e.getLsbD 63
def pteLeaf (e : Dword) : Bool := e.getLsbD 62
def pteW (e : Dword) : Bool := e.getLsbD 61
def pteXQ (e : Dword) : Bool := e.getLsbD 60
def pteMig (e : Dword) : Bool := e.getLsbD 59
def pteD (e : Dword) : Bool := e.getLsbD 58
def pteTier (e : Dword) : Nat := field e 57 56
def pteAddr (e : Dword) : Nat := field e 47 12 * 4096

/-- Rules common to every present entry: a legal tier and zero reserved bits (R384). -/
def pteFieldsOk (e : Dword) : Bool := pteTier e != 3 && field e 55 48 == 0 && field e 11 0 == 0

/-- Well formed as a table pointer: HBM4E, not a leaf, aligned to the table's size. -/
def pteTableOk (e : Dword) (size : Nat) : Bool :=
  pteFieldsOk e && !pteLeaf e && pteTier e == 0 && pteAddr e % size == 0

/-- Well formed as a leaf: aligned to the frame's size. -/
def pteLeafOk (e : Dword) (size : Nat) : Bool := pteFieldsOk e && pteLeaf e && pteAddr e % size == 0

/-- Entries of a plat table that name a unit. -/
def platCount (plat : List Nat) (u : Nat) : Nat := (plat.filter (· == u)).length

/-- Units that a plat table names, rising. -/
def platUnits (plat : List Nat) : List Nat := plat.foldl (fun us u => insertNat u us) []

/-- `LIMIT` of a plat table (R393). -/
def platLimit (sizes : NMap Nat) (plat : List Nat) : Nat :=
  match (platUnits plat).map (fun u => NMap.get 0 sizes u / (64 * platCount plat u)) with
  | [] => 0
  | x :: xs => xs.foldl min x

/-- Swaths of a tier in which a frame is mapped: while it evacuates, those of the table still in force, on which the pages
that Larkar could not place yet keep working; else `LIMIT` (R393, R396). -/
def Tier.mapped (t : Tier) : Nat := if t.st = .evacuating then platLimit t.sizes t.plat else t.limit

/-- A frame or table of some bytes lies where its tier has memory: on one of eight dies below 1,664 MiB (R381), or below the
limit (R393). An entry that names another place is malformed (assumption 56). -/
def State.placed (s : State) (e : Dword) (size : Nat) : Bool :=
  let a := pteAddr e
  match pteTier e with
  | 0 => decide (a + size ≤ s.hbm.mapped * 2097152)
  | 1 => decide (a / 2 ^ 31 < 8) && decide (a % 2 ^ 31 + size ≤ 1664 * 2 ^ 20)
  | 2 => decide (a + size ≤ s.cxl.mapped * 2097152)
  | _ => false

/-! ### Fythes ports (R428) -/

/-- The I/O die that carries a port: 36 on each (R1). -/
def dieOfPort (p : Nat) : Nat := if p < 36 then dieA else dieB

/-- A peer's working ports. -/
def State.peerPorts (s : State) (peer : BitVec 16) : List Nat := (s.ports.filter (fun p => p.2.ok && p.2.peer == peer)).map (·.1)

/-- The port of a peer that carries what comes next: traffic is spread over its ports, in an order the spec does not give. -/
def State.peerPort (s : State) (peer : BitVec 16) : Option Nat :=
  let ps := s.peerPorts peer
  ps[Config.portChoice s.freeCtr % ps.length]?

/-- The identifier under which a window names the host (R435). -/
def hostPeer : BitVec 16 := 0xFFFF

/-- Send one flit on a port: it takes the port's next number (R428). -/
def State.sendFlit (s : State) (port : Nat) : State :=
  let p := NMap.get Port.init s.ports port
  { s with ports := NMap.set Port.init s.ports port { p with tx := p.tx + 1 } }.emit (.flit port p.tx)

/-- Send the flits of one request or answer of `n` bytes to a peer, spread over its working ports: one, and one for each 64 bytes
begun after the first (assumption 57). To the host go PCIe transactions in place of flits (R435). The state, and
the port and the number of each. -/
def State.sendFlitsAs (s : State) (peer : BitVec 16) : Nat → State × List (Nat × BitVec 24)
  | 0 => (s, [])
  | n + 1 =>
    let t := { s with freeCtr := s.freeCtr + 1 }
    match (if peer = hostPeer then none else s.peerPort peer) with
    | none => t.sendFlitsAs peer n
    | some p =>
      let r := (t.sendFlit p).sendFlitsAs peer n
      (r.1, (p, (NMap.get Port.init s.ports p).tx) :: r.2)

/-- The same, but for the ports and numbers that the flits take. -/
def State.sendFlits (s : State) (peer : BitVec 16) (n : Nat) : State := (s.sendFlitsAs peer n).1

/-- Flits of a message that carries some bytes. -/
def flitsOf (n : Nat) : Nat := max 1 ((n + 63) / 64)

/-- Sectors of 32 bytes. -/
def sector (k : Nat) : Nat := k / 32

/-- Read an entry; a sector that cannot be corrected is a cause (R385). A lost sector is one of them, and not `REPLAT_LOST`, which R400
gives for other reads (assumption 49). -/
def State.readPte (s : State) (addr : Nat) : Except Byte Dword :=
  if s.badSec.contains (sector addr) || s.lost.contains (sector addr) then .error cUncorrectable
  else
    let e := BitVec.ofNat 64 (s.rd (tierKey 0 addr) 8)
    if pteP e then .ok e else .error cPageNotPresent

/-- An entry of level 1 or 2 as walks read it: while its change has not been invalidated, as it was before, by the earliest change
(R387). -/
def State.readTable (s : State) (addr : Nat) : Except Byte Dword :=
  match s.inval.findSome? (fun i => i.table.bind (fun x => if x.2.1 = addr then some x.2.2 else none)) with
  | some e => if pteP e then .ok e else .error cPageNotPresent
  | none => s.readPte addr

/-- A walk: the leaf, whether it maps 32 MiB, and where it lies (R383, R384). -/
def State.walk (s : State) (vdev : Nat) (va : Dword) : Except Byte (Dword × Bool × Nat) :=
  let c := s.contract vdev
  if !c.v then .error cPageNotPresent
  else
    match s.readTable (c.ptroot.toNat + 8 * field va 56 41) with
    | .error x => .error x
    | .ok e1 =>
      if !(pteTableOk e1 524288 && s.placed e1 524288) then .error cPageProtection
      else
        let a2 := pteAddr e1 + 8 * field va 40 25
        match s.readTable a2 with
        | .error x => .error x
        | .ok e2 =>
          if pteLeaf e2 then
            if pteLeafOk e2 33554432 && s.placed e2 33554432 then .ok (e2, true, a2) else .error cPageProtection
          else if !(pteTableOk e2 4096 && s.placed e2 4096) then .error cPageProtection
          else
            let a3 := pteAddr e2 + 8 * field va 24 16
            match s.readPte a3 with
            | .error x => .error x
            | .ok e3 => if pteLeafOk e3 65536 && s.placed e3 65536 then .ok (e3, false, a3) else .error cPageProtection

/-- The cached leaf of a page on a die (R386). -/
def State.tlb? (s : State) (die vdev : Nat) (va : Dword) : Option Tlb :=
  s.tlbs.find? (fun t => t.die == die && t.vdev == vdev &&
    (if t.big then t.page == field va 56 25 else t.page == field va 56 16))

/-- The eight ways of one set of a die's cache, 1,024 sets by the low bits of the page: what a fill leaves of the entries that
stand, the latest first (R386; which set and which way, assumption 55). -/
def tlbWays (t : Tlb) (xs : List Tlb) : List Tlb :=
  let mate (x : Tlb) : Bool := x.die == t.die && x.page % 1024 == t.page % 1024
  let out := (xs.filter mate).drop 7
  xs.filter (fun x => !(out.contains x))

/-- Take a leaf into a die's cache; the entry it replaces for the page goes, and the oldest of a full set (R386). -/
def State.tlbFill (s : State) (die vdev : Nat) (va pte : Dword) (big : Bool) : State :=
  let t : Tlb := { die := die, vdev := vdev, page := if big then field va 56 25 else field va 56 16,
                   big := big, pte := pte }
  let same (x : Tlb) : Bool := x.die == die && x.vdev == vdev && x.big == big && x.page == t.page
  { s with tlbs := t :: tlbWays t (s.tlbs.filter (fun x => !same x)) }

/-- The invalidation in progress that bears on an address, the earliest: what it changes has no effect yet (R387). -/
def State.invalAt (s : State) (vdev : Nat) (va : Dword) : Option Inval :=
  s.inval.find? (fun i => i.vdev == vdev && i.table.isNone &&
    (if i.big then field i.page 56 25 == field va 56 25 else field i.page 56 16 == field va 56 16))

/-- The leaf for an address: the one before a change whose invalidation is in progress (R387), else from the die's cache, else by
a walk that fills the cache. -/
def State.leaf (s : State) (die vdev : Nat) (va : Dword) : State × Except Byte (Dword × Bool) :=
  match s.invalAt vdev va with
  | some { old := some x, .. } => (s, .ok x)
  | some { cause := c, .. } => (s, .error c)
  | none =>
    match s.tlb? die vdev va with
    | some t => (s, .ok (t.pte, t.big))
    | none =>
      match s.walk vdev va with
      | .error x => (s, .error x)
      | .ok (e, big, _) => (s.tlbFill die vdev va e big, .ok (e, big))

/-- The first write through an entry sets `D` in memory and in the die's cache (R384). The cached entry keeps its
other fields: what Larkar stores over it has no effect before the invalidation completes (R387). -/
def State.setDirty (s : State) (die vdev : Nat) (va pte : Dword) (big : Bool) : State :=
  let d : Dword := (1 : Dword) <<< 58
  let s := match s.walk vdev va with
    | .error _ => s
    | .ok (e, _, at') => s.wr (tierKey 0 at') 8 (e ||| d).toNat
  s.tlbFill die vdev va (pte ||| d) big

/-- A remote window that covers an address (R429, R430). -/
def Contract.window? (c : Contract) (va : Dword) : Option Nat :=
  (List.range 16).find? (fun j =>
    let d0 := NMap.get 0 c.windows (3 * j)
    let d2 := NMap.get 0 c.windows (3 * j + 2)
    let lo := field d0 63 16 * 65536
    d0.getLsbD 0 && decide (lo ≤ va.toNat) && decide (va.toNat < lo + field d2 47 0))

/-- Translate one line's address for an access of a die (R383 to R385, R430). -/
def State.translate (s : State) (die vdev : Nat) (va : Dword) (write fetch : Bool) : State × TRes :=
  let c := s.contract vdev
  match c.window? va with
  | some j =>
    if fetch || (write && !(NMap.get 0 c.windows (3 * j)).getLsbD 1) then (s, .fault cPageProtection)
    else (s, .window j)
  | none =>
    match s.leaf die vdev va with
    | (s, .error x) => (s, .fault x)
    | (s, .ok (e, big)) =>
      if write && !pteW e then (s, .fault cPageProtection)
      else if fetch && !pteXQ e then (s, .fault cPageProtection)
      else
        let s := if write && !pteD e && !pteMig e then s.setDirty die vdev va e big else s
        let off := if big then field va 24 0 else field va 15 0
        (s, .ok (tierKey (pteTier e) (pteAddr e + off)) (write && pteMig e))

/-! ### Sectors and swaths (R391, R398 to R400) -/

/-- XOR of the bytes of a number (R391). -/
def fold8 : Nat → Nat → Nat
  | 0, _ => 0
  | n + 1, x => Nat.xor (x % 256) (fold8 n (x / 256))

/-- Unit and byte address in the unit of a tier address under a plat table (R391). -/
def platPlace (plat : List Nat) (a : Nat) : Nat × Nat :=
  let line := a / 128
  let g := line / 256
  let e := Nat.xor (line % 256) (fold8 6 g)
  let u := plat.getD e 0
  let rank := ((plat.take e).filter (· == u)).length
  let cu := (plat.filter (· == u)).length
  (u, (g * cu + rank) * 128 + a % 128)

def State.tier (s : State) (isCxl : Bool) : Tier := if isCxl then s.cxl else s.hbm
def State.setTier (s : State) (isCxl : Bool) (t : Tier) : State :=
  if isCxl then { s with cxl := t } else { s with hbm := t }

/-- The swath in motion that an access to a key meets (R399): tier (CXL?) and swath. -/
def State.inMotion (s : State) (k : Nat) : Option (Bool × Nat) :=
  let t := k / 2 ^ 48
  let sw := (k % 2 ^ 48) / 2 ^ 21
  if t = 0 ∧ s.hbm.inFlight.contains sw then some (false, sw)
  else if t = 2 ∧ s.cxl.inFlight.contains sw then some (true, sw)
  else none

/-- What a read of `n` bytes at a key meets in memory: a cause, or the state after any parity repair. -/
def State.meetRead (s : State) (k n : Nat) : Except Byte State :=
  if k < 3 * 2 ^ 48 ∧ ((List.range ((k + n - 1) / 32 + 1 - k / 32)).any (fun i =>
      s.lost.contains (k / 32 + i))) then .error cReplatLost
  else if k < 3 * 2 ^ 48 ∧ ((List.range ((k + n - 1) / 32 + 1 - k / 32)).any (fun i =>
      s.badSec.contains (k / 32 + i))) then .error cUncorrectable
  else
    match s.meetWords k n with
    | none => .error cUncorrectable
    | some s => .ok s

/-- Store bytes at a key: parity first (R357); a store that covers a whole sector gives it fresh check bits and
clears a lost mark (R400). -/
def State.store (s : State) (k : Nat) (data : List Byte) : Except Byte State :=
  match s.meetWords k data.length with
  | none => .error cUncorrectable
  | some s =>
    let s := s.setBytes k data
    let whole (x : Nat) : Bool := decide (k ≤ 32 * x) && decide (32 * x + 32 ≤ k + data.length)
    .ok { s with lost := s.lost.filter (fun x => !whole x), badSec := s.badSec.filter (fun x => !whole x) }

/-! ### Remote windows (R429, R430, R435) -/

def Contract.winPeer (c : Contract) (j : Nat) : BitVec 16 := (NMap.get 0 c.windows (3 * j + 2)).extractLsb' 48 16
def Contract.winVdev (c : Contract) (j : Nat) : Nat := field (NMap.get 0 c.windows (3 * j + 1)) 15 0
def Contract.winVa (c : Contract) (j : Nat) (va : Nat) : Dword :=
  BitVec.ofNat 64 (field (NMap.get 0 c.windows (3 * j + 1)) 63 16 * 65536 +
    (va - field (NMap.get 0 c.windows (3 * j)) 63 16 * 65536))

/-- `REMOTE_FAULT` (R430). -/
def cRemote : Byte := 0x36

/-- A peer can be reached: it has a working port, or, for the host's own windows, the PCIe link is up (R428, R435). -/
def State.peerUp (s : State) (peer : BitVec 16) : Bool := if peer = hostPeer then s.pcieUp else !(s.peerPorts peer).isEmpty

/-- A request through a window (R430): sent when the peer can be reached, and then performed by the peer or not, which is the peer's
own: a free value. What a performed load or atomic brings back is a free value too; none: the peer could not perform it. -/
def State.remote (s : State) (vdev j : Nat) (k : RemoteKind) (va : Nat) (data : List Byte) : State × Option Dword :=
  let c := s.contract vdev
  if !(s.peerUp (c.winPeer j)) then (s, none)
  else
    let r := ((s.sendFlits (c.winPeer j) (flitsOf data.length)).emit
      (.remote (c.winPeer j) (c.winVdev j) k (c.winVa j va) data)).free
    (r.1, if Config.peerPerforms s.freeCtr then some r.2 else none)

/-- A held write of a party outside the warps. -/
def Held.of (id vdev : Nat) (va : Dword) (key : Nat) (data : List Byte) : Held :=
  { id := id, grp := id, vdev := vdev, va := va, key := key, data := data, atom := none, dst := .none, gw := 0, num := 0, lane := 32, pc := 0,
    spc := 0, lseq := 0, pseq := 0, fseq := none, swath := none, smp := none }

/-- Two held writes touch a common byte, at the addresses they name or in the storage they named (R187). -/
def Held.touches (h : Held) (a k n : Nat) : Bool :=
  (decide (a < h.va.toNat + h.data.length) && decide (h.va.toNat < a + n)) || (decide (k < h.key + h.data.length) && decide (h.key < k + n))

/-- A sector that a party outside any parcel could not read is reported to Larkar (R400). -/
def State.reportLost (s : State) (c : Byte) (k : Nat) : State := if c = cReplatLost then s.emit (.larkarNote 1 (k / 32)) else s

/-- A store of the front end, Larkar or the host through a device's page tables, line by line (R210, R378):
the first cause, else every byte stored. A write to a page in migration or a swath in motion is held (R389, R399); one through a window goes to
the peer (R430). -/
def State.feStore (s : State) (die vdev : Nat) (va : Dword) (data : List Byte) : State × Except Byte Unit :=
  match s.translate die vdev va true false with
  | (s, .fault x) => (s, .error x)
  | (s, .window j) =>
    match s.remote vdev j .store va.toNat data with
    | (s, some _) => (s, .ok ())
    | (s, none) => (s, .error cRemote)
  | (s, .ok k mig) =>
    let sw := s.inMotion k
    if mig || sw.isSome then
      let h := { Held.of s.nextId vdev va k data with swath := sw, gw := die }
      ({ s with held := s.held ++ [h], nextId := s.nextId + 1 }, .ok ())
    else
      match s.store k data with
      | .error x => (s, .error x)
      | .ok s => (s, .ok ())

/-- Store records of any length line by line: no store crosses a 64-byte unit. -/
def State.feStores (s : State) (die vdev : Nat) (va : Dword) : List (List Byte) → State × Except Byte Unit
  | [] => (s, .ok ())
  | d :: ds =>
    match s.feStore die vdev va d with
    | (s, .error x) => (s, .error x)
    | (s, .ok _) => s.feStores die vdev (va + BitVec.ofNat 64 d.length) ds

/-- Bytes of a party outside the warps, with its own writes that are still held laid over them (R389). -/
def State.partyHeld (s : State) (die vdev : Nat) (va : Dword) (bs : List Byte) : List Byte :=
  let mine := s.held.filter (fun h => h.lane == 32 && h.gw == die && h.vdev == vdev)
  if mine.isEmpty then bs
  else ((List.range bs.length).zip bs).map (fun x => mine.foldl (fun b h =>
    if h.va.toNat ≤ va.toNat + x.1 then h.data.getD (va.toNat + x.1 - h.va.toNat) b else b) x.2)

/-- Read `n` bytes through a device's page tables, all within one line's page, for a party outside the warps: it sees its own
held writes (R389), and a lost sector is reported to Larkar (R400). -/
def State.feRead (s : State) (die vdev : Nat) (va : Dword) (n : Nat) : State × Except Byte (List Byte) :=
  match s.translate die vdev va false false with
  | (s, .fault x) => (s, .error x)
  | (s, .window j) =>
    match s.remote vdev j .load va.toNat (leBytes 8 n) with
    | (s, some _) =>
      let r := s.freeBytes n
      (r.1, .ok r.2)
    | (s, none) => (s, .error cRemote)
  | (s, .ok k _) =>
    match s.meetRead k n with
    | .error x => (s.reportLost x k, .error x)
    | .ok s => (s, .ok (s.partyHeld die vdev va (s.bytes k n)))

/-! ### Fault records (R209 to R212) -/

/-- What a thread-form record says. -/
structure Rec where
  cause : Byte
  gw    : Nat
  mask  : Mask
  vdev  : Nat
  lseq  : Word
  pc    : Dword
  spc   : Dword
  pages : List Dword
  hndl  : Bool
  ovr   : Bool
  async : Bool
  prov  : Bool
  gexit : Bool
  edit  : Bool
  runa  : Bool
  /-- Dwords 4..7 when they are not the page list. -/
  tail  : Option (List Dword)
  /-- Dword 3 whole, for the form of R360. -/
  d3    : Option Dword
deriving DecidableEq, Repr

def Rec.of (cause : Byte) (gw : Nat) (mask : Mask) (vdev : Nat) (lseq : Word) (pc spc : Dword) : Rec :=
  { cause := cause, gw := gw, mask := mask, vdev := vdev, lseq := lseq, pc := pc, spc := spc, pages := [],
    hndl := false, ovr := false, async := false, prov := false, gexit := false, edit := false, runa := false,
    tail := none, d3 := none }

def b2n (b : Bool) : Nat := if b then 1 else 0

/-- Page i of the record's list, bits [47:16] (R212). -/
def recPage (ps : List Dword) (i : Nat) : Nat := field (ps.getD i 0) 47 16

/-- The eight dwords of a record with a given `FSEQ` (R211, R212). -/
def Rec.dwords (r : Rec) (fseq : Word) : List Dword :=
  let q := quadOfWarp r.gw
  let d0 := fseq.toNat * 2 ^ 32 + r.cause.toNat * 2 ^ 24 + b2n r.hndl * 2 ^ 22 + b2n r.ovr * 2 ^ 21 +
    b2n r.async * 2 ^ 20 + b2n r.prov * 2 ^ 19 + b2n r.gexit * 2 ^ 18 + b2n r.edit * 2 ^ 17 +
    b2n r.runa * 2 ^ 16 + dieOfQuad q * 2 ^ 12 + (q / 16 % 12) * 2 ^ 8 + (q / 4 % 4) * 2 ^ 6 + (q % 4) * 2 ^ 4 +
    r.gw % 16
  let d1 := r.mask.toNat * 2 ^ 32 + r.lseq.toNat
  let d2 := r.pages.length * 2 ^ 60 + field r.pc 56 2
  let d3 := field (r.pages.getD 0 0) 56 48 * 2 ^ 55 + field r.spc 56 2
  let pg := [0, 2, 4, 6].map (fun i => BitVec.ofNat 64 (recPage r.pages (i + 1) * 2 ^ 32 + recPage r.pages i))
  [BitVec.ofNat 64 d0, BitVec.ofNat 64 d1, BitVec.ofNat 64 d2, r.d3.getD (BitVec.ofNat 64 d3)] ++
    (r.tail.getD pg)

def dwordBytes (ds : List Dword) : List Byte := (ds.map (fun d => leBytes 8 d.toNat)).flatten

/-- The next value of a device's fault sequence counter is taken (R210). -/
def State.reserve (s : State) (v : Nat) : State × Word :=
  let c := s.contract v
  (s.setContract v { c with fseqc := c.fseqc + 1 }, c.fseqc + 1)

/-- Write a record with a number: it goes to the debugger's queue or the fault queue, and to Larkar's queue when the entry's
line fails translation (R210, R413). Records that Larkar must service or release stay in `larkarQ` until it does. -/
def State.recordAs (s : State) (r : Rec) (toDbg : Bool) (fseq : Word) : State :=
  let c := s.contract r.vdev
  let ds := r.dwords fseq
  let base := if toDbg then NMap.get 0 c.debug 0 else c.fqbase
  let log := if toDbg then field (NMap.get 0 c.debug 2) 45 42 else c.fqlog
  let va := base + BitVec.ofNat 64 (64 * (fseq.toNat % 2 ^ log))
  let open' : Bool := r.cause == 0x10 || r.cause == 0x11 || r.cause == 0x28 || toDbg
  let s := if open' then { s with larkarQ := s.larkarQ ++ [(r.vdev, ds)] } else s
  match s.feStore dieA r.vdev va (dwordBytes ds) with
  | (s, .ok _) => s
  | (s, .error _) => s.emit (.larkar r.vdev ds)

/-- Write a record under the next number of its device (R210). -/
def State.record (s : State) (r : Rec) (toDbg : Bool) : State × Word :=
  let x := s.reserve r.vdev
  (x.1.recordAs r toDbg x.2, x.2)

/-- Add pages to a batch: duplicates dropped, others than the first eight of one upper range left out (R218). -/
def addPages (ps : List Dword) (ovr : Bool) : List Dword → List Dword × Bool
  | [] => (ps, ovr)
  | p :: rest =>
    if ps.contains p then addPages ps ovr rest
    else if 8 ≤ ps.length ∨ (ps ≠ [] ∧ field p 56 48 ≠ field (ps.getD 0 0) 56 48) then addPages ps true rest
    else addPages (ps ++ [p]) ovr rest

/-- Write the record of one batch of a run-ahead set (R218), and put its number beside it. -/
def State.recordBatch (s : State) (gw : Nat) (fpc : Dword) (b : FaultBatch) : State × Word :=
  let w := s.warp gw
  let r := { Rec.of b.cause gw b.rmask w.vdev w.lseq fpc b.spc with pages := b.pages, ovr := b.ovr, runa := b.runa, edit := w.edit }
  match b.fseq with
  | some n => (s.recordAs r false n, n)
  | none => s.record r false

/-- A run-ahead set that is given up writes the records that have taken their numbers (R210). -/
def State.closeRun (s : State) (gw : Nat) : State :=
  match s.runs.find? (fun x => x.1 == gw) with
  | none => s
  | some (_, r) => (r.batches.filter (fun b => b.fseq.isSome)).foldl (fun (s : State) b => (s.recordBatch gw r.fpc b).1) s

/-! ### Operations in flight -/

def State.flight? (s : State) (id : Nat) (k : FKind) : Option Flight :=
  s.flights.find? (fun f => f.id == id && f.kind == k)

/-- The register writes that an operation in flight will make: its results, and old values of the held atomics it waits for. -/
def State.landing (s : State) (f : Flight) : List RegW :=
  f.writes ++ ((s.held.filter (fun h => f.behind.contains h.id && h.atom.isSome)).map (fun h =>
    match h.dst, h.atom with
    | .reg r false, some (_, w, _, _) => regWrites h.lane r (w == .w64) 0
    | _, _ => [])).flatten

/-- The register writes of a warp that are on their way. -/
def State.onTheWay (s : State) (gw : Nat) : List RegW :=
  ((s.flights.filter (fun f => f.gw == gw)).map s.landing).flatten

def State.dropFlight (s : State) (id : Nat) : State :=
  { s with flights := s.flights.filter (fun f => !(f.id == id)) }

/-- Discard what the threads of a mask have outstanding (R98, R208): loads, SFU results, atomics' old values, handles
and lookups lose these lanes' writes, matrix work of the strand goes, performed stores stay. -/
def Flight.discards (f : Flight) (gw : Nat) (m : Mask) : Bool :=
  f.gw == gw && (f.mask &&& m != 0) &&
    (match f.kind with | .store => false | .matrix => !f.sealed | _ => true)

def writeLane : RegW → Nat
  | .hold k _ => k / 256
  | .near k _ => k / 16
  | .uni _ _ => 32

def Flight.without (f : Flight) (m : Mask) : Flight :=
  { f with mask := f.mask &&& ~~~ m,
           writes := f.writes.filter (fun w => if writeLane w = 32 then (f.mask &&& ~~~ m) != 0
                                               else !(hasLane m (writeLane w))) }

/-- An operation that outlives its warp's stay in the slot: it writes no register, and belongs to no resident warp. -/
def Flight.orphan (f : Flight) : Flight := { f with writes := [], gw := f.gw + 1048576, spot := none }

/-- Operations without a thread are dropped; a sampled one ends all the same, and its record is written then (R420, R426). -/
def sweepFlights (fs : List Flight) : List Flight :=
  fs.filterMap (fun f =>
    if f.mask != 0 then some f
    else if f.gw < 1048576 && f.sample.isSome then some { f.orphan with kill := 0, sects := [] }
    else if f.sample.isSome then some f
    else none)

def State.discard (s : State) (gw : Nat) (m : Mask) : State :=
  { s with flights := sweepFlights (s.flights.map (fun f => if f.discards gw m then f.without m else f)) }

/-! ### Restart (R42) and the working image (R245) -/

/-- The committed image takes the working image (R245); a spot run in flight commits when it ends. -/
def State.commitAcc (s : State) (q : Nat) : State :=
  let x := s.quad q
  let s := s.setQuad q { x with commit := x.work }
  { s with flights := s.flights.map (fun f => if f.kind == .matrix && f.iss.quad == q then { f with sealed := true } else f) }

/-- The working image reverts, and what the strand has in flight on the unit is discarded (R245). -/
def State.revertAcc (s : State) (q gw : Nat) : State :=
  let x := s.quad q
  let s := s.setQuad q { x with work := x.commit }
  { s with flights := s.flights.filter (fun f => !(f.kind == .matrix && f.gw == gw && !f.sealed)) }

/-- A thread at its restart PC: where a restart leaves it (R42). -/
def Thread.restart (t : Thread) : Thread := { t with pc := t.rpc, since := 0, stat := .ready }

/-- Is a thread at a strand boundary (R41)? In run-ahead it counts as one (R217). -/
def Thread.atBoundary (t : Thread) : Bool :=
  t.pc == t.rpc || (match t.stat with | .runAhead => true | _ => false)

/-- End of a warp-wide strand by abandonment: the image reverts (R245). Its footprints stay held until it has executed again
and seals (R256). -/
def State.abandonWide (s : State) (gw : Nat) : State :=
  let w := s.warp gw
  if w.wide then
    let s := s.revertAcc (quadOfWarp gw) gw
    s.setWarp gw { w with wide := false, gangGrps := [], gangEnd := false }
  else s

/-- A gang form at which the warp waits is given up with the strand. -/
def Warp.leaveGang (w : Warp) (m : Mask) : Warp :=
  match w.gang with
  | some g => if g.iss.mask &&& m = 0 then w else { w with gang := none }
  | none => w

/-- A warp's requests to the units of its core are withdrawn (R42, R176). -/
def State.unqueue (s : State) (gw : Nat) : State :=
  let c := s.core (gw / 64)
  if c.aliasQ.contains gw || c.hadQ.contains gw then
    s.setCore (gw / 64) { c with aliasQ := c.aliasQ.filter (fun x => x != gw), hadQ := c.hadQ.filter (fun x => x != gw) }
  else s

/-- Take the threads of `m` back: results on their way are discarded, near and latch values lost (R30, R34, R42). -/
def State.takeBack (s : State) (gw : Nat) (m : Mask) : State :=
  let s := (s.discard gw m).unqueue gw
  let w := s.warp gw
  s.setWarp gw ((((w.mapThreads m (fun _ t => t.restart)).loseLatches m).loseNear m).leaveGang m)

/-- Lanes of a warp that are not at a strand boundary. -/
def Warp.offBoundary (w : Warp) : Mask := maskOf (fun l => hasLane w.live l && !(w.thread l).atBoundary)

/-- A thread in the trap handler whose interrupted strand is abandoned leaves the handler for that strand's entry (R254; assumption
31). -/
def Thread.leaveTrap (t : Thread) : Thread :=
  if t.trap.inTrap then
    { t with rpc := t.trap.rpc, survM := t.trap.survM, survW := t.trap.survW, needHdr := false, again := false,
             trap := { t.trap with inTrap := false } }
  else t

/-- The warp-wide strand behind a warp's trap handler is abandoned: the image reverts, and the threads leave the handler (R245, R254). -/
def State.abandonBehind (s : State) (gw : Nat) : State :=
  let w := s.warp gw
  if w.trapWide then
    let s := s.revertAcc (quadOfWarp gw) gw
    s.setWarp gw { w.mapThreads w.live (fun _ t => t.leaveTrap) with trapWide := false, gangGrps := [], gangEnd := false }
  else s

/-- A member of an abandoned gang strand goes back to its strand entry (R254). -/
def State.memberBack (s : State) (gw : Nat) : State :=
  let s := (s.abandonWide gw).abandonBehind gw
  let s := s.takeBack gw (s.warp gw).offBoundary
  s.setWarp gw (((s.warp gw).loseLatches (BitVec.allOnes 32)).loseNear (BitVec.allOnes 32))

/-- The other members of the gangs of a warp's strand (R254). -/
def State.gangOthers (s : State) (gw : Nat) : List Nat :=
  let w := s.warp gw
  if w.gangGrps.isEmpty then []
  else s.resident.filter (fun x =>
    x != gw && (s.warp x).vdev == w.vdev && (s.warp x).lseq == w.lseq && (s.warp x).gangGrps.any w.gangGrps.contains)

/-- Abandon the warp-wide strand of a warp, and of every member of its gang (R245, R254). A gang strand that stands behind the trap
handler is not the one abandoned. -/
def State.abandonStrand (s : State) (gw : Nat) : State :=
  if (s.warp gw).wide then (s.gangOthers gw).foldl State.memberBack (s.abandonWide gw) else s

/-- Take threads back to their restart PCs and abandon the strand they stood in (R42, R245, R254). -/
def State.restartThreads (s : State) (gw : Nat) (m : Mask) : State :=
  if m = 0 then s else (s.abandonStrand gw).takeBack gw m

/-! ### Waiters (R138 to R140, R301) -/

/-- A thread waits at a `WAITJ` on mask `j`. -/
def Thread.waitsOn (t : Thread) (j : Nat) : Bool :=
  match t.stat with
  | .waitj k _ => k == j
  | _ => false

/-- Every non-exited thread named in a mask waits at a `WAITJ` on it (R139). -/
def Warp.waitMet (w : Warp) (j : Nat) : Bool :=
  (laneList (w.getJ j &&& w.live)).all (fun l => (w.thread l).waitsOn j)

/-- A blocked thread released: it goes on at the instruction after its own, and its restart PC with it (R41);
that instruction is committed (R422). -/
def Thread.release (t : Thread) (len : Nat) : Thread :=
  let n := t.pc + BitVec.ofNat 64 (4 * len)
  { t with stat := .ready, pc := n, rpc := n, needHdr := true, again := false, retired := t.retired + t.since + 1, since := 0 }

/-- Evaluate the release conditions of `WAITJ` and `SLEEPJ` after a change of the masks; all that hold release
at once (R138). -/
def Warp.wake (w : Warp) : Warp :=
  w.mapThreads w.live (fun l t =>
    match t.stat with
    | .waitj j n => if w.waitMet j then t.release n else t
    | .sleepj j n => if hasLane (w.getJ j) l then t else t.release n
    | _ => t)

/-- A warp stands in its quadrant's active window. -/
def State.inWindow (s : State) (gw : Nat) : Bool := (s.quad (quadOfWarp gw)).win.contains (.warp (gw % 16))

/-- Release every recorded waiter of a closure at its home (R294, R301). One that a swap has taken is recorded no more: it is
ready to issue its `BWAIT` again (R141, R302; assumption 24). -/
def State.wakeClosure (s : State) (home : Nat) : State :=
  s.resident.foldl (fun s gw =>
    let w := s.warp gw
    s.setWarp gw (w.mapThreads w.live (fun _ t =>
      match t.stat with
      | .bwait h n => if h = home then (if s.inWindow gw then t.release n else { t with stat := .ready }) else t
      | _ => t))) s

/-! ### Leaving a quadrant (R168, R354) -/

/-- Free a warp's window position (R168); an exchange in progress keeps its clock (R169). -/
def freePos (slot : Nat) : Pos → Pos
  | .warp k => if k = slot then .empty else .warp k
  | .exch o (some i) d => if i = slot then .exch o none d else .exch o (some i) d
  | p => p

/-- The committed image as it stands once every instruction of the strands that have sealed has completed: with the run
registers that a spot run in flight will leave (R245, R281). -/
def State.committed (s : State) (q : Nat) : Acc :=
  s.flights.foldl (fun a f =>
    match f.spot with
    | some (cnt, var, nrm) =>
      if f.kind == .matrix && f.sealed && f.iss.quad == q then { a with cnt := cnt, var := var, nrm := nrm } else a
    | none => a) (s.quad q).commit

/-- A warp leaves its slot and its window position; its performed stores, table operations and sealed matrix work stay. -/
def State.dropWarp (s : State) (gw : Nat) : State :=
  let q := quadOfWarp gw
  let slot := gw % 16
  let x := s.quad q
  let mine (c : Option (Nat × Mask × Dword)) : Option (Nat × Mask × Dword) :=
    match c with
    | some (k, m, pc) => if k = slot then none else some (k, m, pc)
    | none => none
  let mineSealed : Bool := s.flights.any (fun f => f.gw == gw && f.kind == .matrix && f.sealed && f.spot.isSome)
  let a := if mineSealed then s.committed q else x.commit
  let x := { x with win := x.win.map (freePos slot), cur := mine x.cur, fetch := mine x.fetch, commit := a,
                    work := if mineSealed then { x.work with cnt := a.cnt, var := a.var, nrm := a.nrm } else x.work }
  let s := ((s.unqueue gw).setQuad q x).setWarp gw Warp.init
  { s with resident := s.resident.filter (fun g => !(g == gw)),
           flights := (s.flights.filter (fun f => !(f.gw == gw) || f.kind == .store || f.kind == .thset ||
             (f.kind == .matrix && f.sealed) || f.sample.isSome)).map (fun f =>
               if f.gw == gw then { f.orphan with kill := 0, sects := [] } else f),
           runs := NMap.drop s.runs gw }

/-- A warp of the given parcel. -/
def Warp.ofParcel (w : Warp) (v : Nat) (l : Word) (p : Nat) : Bool :=
  w.vdev == v && w.lseq == l && w.pseq == p

def State.warpsOf (s : State) (v : Nat) (l : Word) (p : Nat) : List Nat :=
  s.resident.filter (fun gw => (s.warp gw).ofParcel v l p)

/-- Everything of a parcel on the part stops: its warps leave, saved ones are forgotten, queued jobs are dropped
and running ones stop, held writes are dropped; bytes already written stay (R354, R389, R319). -/
def State.stopParcel (s : State) (v : Nat) (l : Word) (p : Nat) : State :=
  let s := (s.warpsOf v l p).foldl (fun s gw => (s.closeRun gw).dropWarp gw) s
  { s with jobs := s.jobs.filter (fun j => !(j.vdev == v && j.lseq == l && j.pseq == p)),
           held := s.held.filter (fun h => !(h.vdev == v && h.lseq == l && h.pseq == p && h.lane != 32)),
           saved := s.saved.filter (fun x => !(x.warp.ofParcel v l p)),
           savedJobs := s.savedJobs.filter (fun j => !(j.vdev == v && j.lseq == l && j.pseq == p)) }

/-! ### Completion records and the task graph (R337, R338, R341) -/

/-- The four dwords of a completion record (R341). -/
def complDwords (lseq : Word) (pseq type cause : Nat) (ident : Word) (rseq clk : Nat) : List Dword :=
  [BitVec.ofNat 64 (lseq.toNat * 2 ^ 32 + pseq * 2 ^ 16 + type * 2 ^ 8 + cause),
   BitVec.ofNat 64 (ident.toNat * 2 ^ 32 + rseq % 2 ^ 32), BitVec.ofNat 64 clk, 0]

/-- Write a completion record of a launch, which takes the next `RSEQ` (R341). -/
def State.complete (s : State) (v : Nat) (l : Word) (pseq type cause : Nat) : State :=
  match s.launch? v l with
  | none => s
  | some x =>
    let r := x.rseq + 1
    let s := s.modLaunch v l (fun x => { x with rseq := r })
    let va := x.compl + BitVec.ofNat 64 (32 * (r % 2 ^ x.cqlog))
    (s.feStore dieA v va (dwordBytes (complDwords l pseq type cause x.ident r x.clk))).1

def Parcel.isDone (p : Parcel) : Bool := p.state == .done || p.state == .settled

/-- A predecessor has released its dependants: triggered under `EARLY`, or DONE (R337). One that has ended releases none
(R341). -/
def Parcel.releases (p : Parcel) : Bool := p.isDone || (p.early && p.triggered && p.state != .ended)

/-- Waiting parcels whose predecessors have all released them become ready; none is made waiting again (R338). -/
def Launch.promote (x : Launch) : Launch :=
  { x with parcels := x.parcels.map (fun p =>
      if p.state == .waiting && p.preds.all (fun i => x.parcels.any (fun y => y.pseq == i && y.releases)) then
        { p with state := .ready }
      else p) }

/-- Parcels that never start: one of their predecessors has ended or never starts, and they are not placed yet, be they released already
by its trigger (R341). -/
def Launch.blocked (x : Launch) : List Nat :=
  x.parcels.foldl (fun bad p =>
    if p.state == .ended || ((p.state == .waiting || p.state == .ready) && p.preds.any (fun i => bad.contains i)) then p.pseq :: bad
    else bad) []

/-- Write the launch's own records when they are due (R341): DONE after every parcel's, with `CONTRACT_MISS` when
late (R12); SETTLED after every parcel's, or ENDED in its place when a parcel had ENDED in place of SETTLED (R360); ENDED once every
parcel that can still run has finished. Of several causes ENDED carries the one of the parcel of lowest index (assumption 49). -/
def State.launchRecords (s : State) (v : Nat) (l : Word) : State :=
  match s.launch? v l with
  | none => s
  | some x =>
    let s :=
      if x.parcels.all (·.isDone) && !x.doneW then
        let cause := if x.budget < x.used then 0x31 else 0
        (s.complete v l 0xFFFF 1 cause).modLaunch v l (fun x => { x with doneW := true })
      else s
    let s :=
      if x.parcels.all (fun p => p.state == .settled) && !x.settledW && !x.endedW then
        match x.parcels.find? (fun p => p.cause != 0) with
        | some p => (s.complete v l 0xFFFF 4 p.cause.toNat).modLaunch v l (fun x => { x with endedW := true })
        | none => (s.complete v l 0xFFFF 2 0).modLaunch v l (fun x => { x with settledW := true })
      else s
    let bad := x.blocked
    if x.parcels.any (fun p => p.state == .ended) && !x.endedW &&
        x.parcels.all (fun p => p.isDone || bad.contains p.pseq) then
      let cause := ((x.parcels.find? (fun p => p.state == .ended)).map (fun p => p.cause.toNat)).getD 0
      (s.complete v l 0xFFFF 4 cause).modLaunch v l (fun x => { x with endedW := true })
    else s

/-- End a parcel without relaunch: everything stops, ENDED with the cause is written, its dependants never start
(R206, R341). -/
def State.endParcel (s : State) (v : Nat) (l : Word) (p : Nat) (cause : Byte) : State :=
  let s := s.stopParcel v l p
  let s := s.modParcel v l p (fun y => { y with state := .ended, cause := cause, place := [], quadsAt := [] })
  (s.complete v l p 4 cause.toNat).launchRecords v l

/-- A kill (R354, R355): a record with `TRACT_KILLED`, then the parcel runs again from its image when the launch
allows and it has run fewer than four times, else it is ENDED with the cause. The record's core is that of the access, with quadrant and
slot 0 (assumption 49). -/
def State.killParcel (s : State) (gw : Nat) (v : Nat) (l : Word) (p : Nat) (cause : Byte) : State :=
  let s := (s.record (Rec.of 0x30 (gw / 64 * 64) 0 v l 0 0) false).1
  match s.launch? v l, s.parcel? v l p with
  | some x, some y =>
    if x.relaunch && y.kills < 3 then
      (s.stopParcel v l p).modParcel v l p (fun y =>
        { y with state := .ready, kills := y.kills + 1, place := [], quadsAt := [], triggered := false, clocks := 0, progress := 0 })
    else s.endParcel v l p cause
  | _, _ => s.stopParcel v l p

/-- After a trigger or a DONE: the dependants that it releases become ready (R338). -/
def State.releaseDependants (s : State) (v : Nat) (l : Word) : State := s.modLaunch v l Launch.promote

/-- Every thread that the parcel started with has triggered or exited (R305). -/
def State.allTriggered (s : State) (v : Nat) (l : Word) (p : Nat) : Bool :=
  (s.warpsOf v l p).all (fun gw =>
    let w := s.warp gw
    (laneList w.live).all (fun i => (w.thread i).trig)) &&
  s.saved.all (fun x => !(x.warp.ofParcel v l p) || (laneList x.warp.live).all (fun i => (x.warp.thread i).trig))

/-- The parcel triggers when all its threads have (R305); `TRIG` marks and exits both ask. -/
def State.checkTrigger (s : State) (v : Nat) (l : Word) (p : Nat) : State :=
  match s.parcel? v l p with
  | none => s
  | some y =>
    if y.state == .running && !y.triggered && s.allTriggered v l p then
      (s.modParcel v l p (fun y => { y with triggered := true })).releaseDependants v l
    else s

/-! ### Taking an exception (R206 to R208, R222) -/

/-- An exception as the instruction raises it: its cause, the lanes that caused it, the argument of `TRAP`, and
the pages it lists. -/
structure Exc where
  cause : Byte
  mask  : Mask
  arg   : Option Word
  pages : List Dword
  /-- Lanes that other exceptions of the same instruction stop (R210). -/
  also  : Mask
deriving DecidableEq, Repr

def Exc.of (cause : Byte) (mask : Mask) : Exc := { cause := cause, mask := mask, arg := none, pages := [], also := 0 }

/-- The strand entry a record names: the restart PC of the lowest thread of the mask (R211). -/
def Warp.spcOf (w : Warp) (m : Mask) : Dword := (w.thread (lowest m)).rpc

/-- The warp that issues. -/
def State.iw (s : State) : Warp := s.warp s.iss.gw
def State.setIw (s : State) (w : Warp) : State := s.setWarp s.iss.gw w

/-- A record of the issuing set. -/
def State.recOf (s : State) (e : Exc) (hndl : Bool) : Rec :=
  let w := s.warp s.iss.gw
  let ps := addPages [] false e.pages
  { Rec.of e.cause s.iss.gw e.mask w.vdev w.lseq s.iss.pc (w.spcOf e.mask) with
    pages := ps.1, ovr := ps.2, hndl := hndl, edit := w.edit,
    tail := e.arg.map (fun a => [zx a, 0, 0, 0]) }

/-- A thread enters the handler: it saves its trap state and its PC becomes the handler's address (R222), and so does its restart PC,
so that it stands at a boundary there (assumption 9). -/
def Thread.enterTrap (t : Thread) (len : Nat) (fseq : Word) (cause : Byte) (handler : Dword) : Thread :=
  { t with
    trap := { pc := t.pc, len := BitVec.ofNat 2 len, fseq := fseq, cause := cause, inTrap := true, rpc := t.rpc,
              survM := t.survM, survW := t.survW, since := t.since },
    pc := handler, rpc := handler, needHdr := true, again := false, since := 0, stat := .ready }

/-- Lanes of the warp that are neither in the set, nor exited, nor blocked or parked, nor at a boundary: those
that trap entry takes back to their restart PCs (R222 item 3). A run-ahead set goes on: R217 does not name the trap entry of
other threads among what stops it, and R222 leaves parked threads unaffected (assumption 24). -/
def Warp.midStrand (w : Warp) (but : Mask) : Mask :=
  maskOf (fun l => hasLane w.live l && !(hasLane but l) && !(w.thread l).atBoundary &&
    (match (w.thread l).stat with
     | .ready | .stalled _ | .gang => true
     | _ => false))

/-- Results on their way to near registers are discarded at trap entry; those for hold and uniform registers
land (R208). -/
def State.discardNear (s : State) (gw : Nat) (m : Mask) : State :=
  { s with flights := s.flights.map (fun f =>
      if f.gw == gw && (f.mask &&& m) != 0 then
        { f with writes := f.writes.filter (fun w => match w with
            | .near k _ => !(hasLane m (k / 16))
            | _ => true) }
      else f) }

/-- Trap entry for the threads of `m` (R222); `also` are lanes that the same instruction stops for another cause. A warp-wide
strand stands behind the handler with its working image (R207, R245), and its request to a unit of the core is withdrawn (R176). -/
def State.trapEntry (s : State) (gw : Nat) (m also : Mask) (fseq : Word) (cause : Byte) (len : Nat) : State :=
  let s := (s.discardNear gw m).unqueue gw
  let s := s.restartThreads gw ((s.warp gw).midStrand (m ||| also))
  let w := s.warp gw
  let w := { (w.loseLatches (BitVec.allOnes 32)).loseNear (BitVec.allOnes 32) with wide := false, trapWide := w.wide || w.trapWide }
  s.setWarp gw (w.mapThreads m (fun _ t => t.enterTrap len fseq cause w.handler))

/-- The threads that a precise stop stops: in a warp-wide strand the whole set (R246). -/
def Warp.stopped (w : Warp) (set m : Mask) : Mask := if w.wide then set else m

/-- Whether a program error enters the handler: there is one, no thread is already in it (R225), and the warp is not in
the pre-emption handler (R363). A set of which only some threads are in the handler is taken as one that is (assumption 49):
R225 speaks of a thread, and R206 of the threads. -/
def Warp.enters (w : Warp) (m : Mask) : Bool :=
  w.handler != 0 && !w.inPre && (laneList m).all (fun l => !(w.thread l).trap.inTrap)

/-- The program-error path (R206): into the warp's handler, or the parcel ends. -/
def State.programError (s : State) (e : Exc) : State :=
  let gw := s.iss.gw
  let w := s.warp gw
  let m := w.stopped s.iss.mask e.mask
  let enter := w.enters m
  let r := s.record (s.recOf e enter) false
  if enter then r.1.trapEntry gw m e.also r.2 e.cause s.iss.words
  else r.1.endParcel w.vdev w.lseq w.pseq e.cause

/-- Park threads at their restart PCs on a record (R219, R414). -/
def State.park (s : State) (gw : Nat) (m : Mask) (fseq : Word) (dbg : Bool) : State :=
  let s := s.restartThreads gw m
  let w := s.warp gw
  s.setWarp gw (w.mapThreads m (fun _ t => { t with stat := .parked fseq dbg }))

/-- The debugger's path (R206, R414, R415): a record in its queue and the threads park while one is attached; else
a program error. -/
def State.debugStop (s : State) (e : Exc) : State :=
  let gw := s.iss.gw
  let w := s.warp gw
  if (s.contract w.vdev).attached then
    let m := w.stopped s.iss.mask e.mask
    let (s, fseq) := s.record (s.recOf e false) true
    let w := s.warp gw
    let at' (l : Nat) : Dword := (w.thread l).pc
    let s := s.park gw m fseq true
    let w := s.warp gw
    s.setWarp gw (w.mapThreads m (fun l t => { t with bpStop := some (at' l) }))
  else s.programError e

/-- Page service without run-ahead (R206, R421): a record that lists the page, and the threads park. -/
def State.pagePark (s : State) (e : Exc) : State :=
  let gw := s.iss.gw
  let m := (s.warp gw).stopped s.iss.mask e.mask
  let (s, fseq) := s.record (s.recOf e false) false
  s.park gw m fseq false

/-- TAKING AN EXCEPTION, one operation for every instruction: the path that its cause takes (R206). A fault of a
load, store or atomic on a page goes to run-ahead instead (Machine/RunAhead.lean). -/
def State.take (s : State) (e : Exc) : State :=
  let w := s.warp s.iss.gw
  if e.cause = 0x12 ∨ e.cause = 0x13 then
    let s := (s.record (s.recOf e false) false).1
    s.killParcel s.iss.gw w.vdev w.lseq w.pseq e.cause
  else if e.cause = 0x10 ∨ e.cause = 0x11 ∨ (e.cause = 0x28 ∧ e.pages ≠ []) then s.pagePark e
  else if e.cause = 0x21 ∨ e.cause = 0x22 then s.debugStop e
  else s.programError e

/-- Whether an exception ends the parcel: a program error that no handler takes (R206). -/
def State.endsParcel (s : State) (e : Exc) : Bool :=
  let w := s.iw
  let page : Bool := e.cause == 0x10 || e.cause == 0x11 || (e.cause == 0x28 && !e.pages.isEmpty)
  let dbg : Bool := (e.cause == 0x21 || e.cause == 0x22) && (s.contract w.vdev).attached
  !page && !dbg && e.cause != 0x12 && e.cause != 0x13 && !(w.enters (w.stopped s.iss.mask e.mask))

def Exc.kills (e : Exc) : Bool := e.cause == 0x12 || e.cause == 0x13
def Exc.isPage (e : Exc) : Bool := e.cause == 0x10 || e.cause == 0x11 || (e.cause == 0x28 && !e.pages.isEmpty)

/-- The debugger's path (R206). -/
def State.toDebugger (s : State) (e : Exc) : Bool :=
  (e.cause == 0x21 || e.cause == 0x22) && (s.contract s.iw.vdev).attached

/-- The records of several exceptions, in order, with their numbers. -/
def State.recordAll (s : State) (enter : Bool) (es : List Exc) : State × List (Exc × Word) :=
  es.foldl (fun (a : State × List (Exc × Word)) e =>
    let error : Bool := !e.kills && !e.isPage && !s.toDebugger e
    let r := a.1.record (a.1.recOf e (error && enter)) (s.toDebugger e)
    (r.1, a.2 ++ [(e, r.2)])) (s, [])

/-- Several exceptions of one instruction in a warp-wide strand, which stop the whole set once (R210, R246): each has its
record; a program error goes before a stop that parks the threads. -/
def State.takeWide (s : State) (es : List Exc) : State :=
  let gw := s.iss.gw
  let w := s.iw
  let r := s.recordAll (w.enters s.iss.mask) es
  match r.2.find? (fun x => !x.1.isPage && !s.toDebugger x.1) with
  | some x =>
    let s := r.1.trapEntry gw s.iss.mask 0 x.2 x.1.cause s.iss.words
    r.2.foldl (fun (s : State) y => if y.1.isPage then s
      else s.setWarp gw ((s.warp gw).mapThreads y.1.mask (fun _ t => { t with trap := { t.trap with fseq := y.2, cause := y.1.cause } }))) s
  | none =>
    match r.2 with
    | [] => r.1
    | x :: _ => r.1.park gw s.iss.mask x.2 (s.toDebugger x.1)

/-- Several exceptions of one instruction, each with its own record, in order (R210); `rest` takes them where they are not
taken as one. A kill, or a program error that no handler takes, ends the work of all of them. -/
def State.takeBy (s : State) (es : List Exc) (rest : List Exc → State) : State :=
  let all := es.foldl (fun m e => m ||| e.mask) 0
  let es := es.map (fun e => { e with also := all &&& ~~~ e.mask })
  let w := s.iw
  match es.find? s.endsParcel, es.find? Exc.kills with
  | some e, _ => (s.recordAll false es).1.endParcel w.vdev w.lseq w.pseq e.cause
  | none, some e => (s.recordAll false es).1.killParcel s.iss.gw w.vdev w.lseq w.pseq e.cause
  | none, none => if s.iw.wide && decide (2 ≤ es.length) then s.takeWide es else rest es

def State.takeAll (s : State) (es : List Exc) : State := s.takeBy es (fun es => es.foldl State.take s)

/-- RETURN FROM AN EXCEPTION (R224): the saved restart PC and survivor declaration come back, `INTRAP` clears, and
the thread goes on at the saved restart PC or after the stopping instruction. -/
def Thread.trapReturn (t : Thread) (skip : Bool) : Thread :=
  { t with
    pc := if skip then t.trap.pc + BitVec.ofNat 64 (4 * t.trap.len.toNat) else t.trap.rpc,
    rpc := t.trap.rpc, survM := t.trap.survM, survW := t.trap.survW, needHdr := false, again := false,
    retired := t.retired + t.since + 1, since := if skip then t.trap.since else 0,
    trap := { t.trap with inTrap := false } }

end Sys2Proof.Machine
end

