-- ==== Sys2Proof/Machine/Operands.lean ====
section
/-! DEFINITION. Operand forms (spec/02 R23, R28; spec/03 R53 to R57, R68; spec/05 R95): how each kind of source
takes its value, which registers an operand names, guards, and the special values. -/

namespace Sys2Proof

open Machine

/-- How a source reads: 32-bit or 64-bit integer, FP32, a scalar 16-bit code, a packed half pair, an 8-bit code
(R56, R72). -/
inductive Ty where
  | i32 | i64 | f32
  | s16 (h : Half)
  | pair (h : Half)
  | b8
deriving DecidableEq, Repr

def widthTy : Width → Ty
  | .w32 => .i32
  | .w64 => .i64

/-- Registers a source of a type occupies (R23, R95). -/
def Ty.regs : Ty → Nat
  | .i64 => 2
  | _ => 1

/-- An immediate's value under a type (R56): integers sign-extend, floating types convert exactly. -/
def immVal (ty : Ty) (v : BitVec 8) : Dword :=
  match ty with
  | .i32 => zx (v.signExtend 32)
  | .i64 => v.signExtend 64
  | .f32 => BitVec.ofNat 64 (fp32.round .rne (Fl.ofInt v.toInt))
  | .s16 h => BitVec.ofNat 64 (h.fmt.round .rne (Fl.ofInt v.toInt))
  | .pair h => BitVec.ofNat 64 (h.fmt.round .rne (Fl.ofInt v.toInt) * 65537)
  | .b8 => v.setWidth 64

/-- The literal's value under a type (R56). -/
def litVal (ty : Ty) (v : Word) : Dword :=
  match ty with
  | .i64 => sx v
  | .s16 _ => zx (v &&& 0xFFFF)
  | .b8 => zx (v &&& 0xFF)
  | _ => zx v

/-- A special value in a lane (R28). -/
def specialVal (w : Warp) (i : Issue) (l : Nat) : Special → Word
  | .z => 0
  | .lane => BitVec.ofNat 32 l
  | .wslot => BitVec.ofNat 32 i.slot
  | .nthr => BitVec.ofNat 32 (laneCount i.mask)
  | .smask => i.mask
  | .live => w.live
  | .quad => BitVec.ofNat 32 (i.quad % 4)
  | .core => BitVec.ofNat 32 (i.quad / 4 % 4)
  | .clk => BitVec.ofNat 32 i.clk
  | .f1 => 0x3F800000

/-- The value of a source in a lane. A 32-bit read of a latch takes its low word (R23). -/
def Opd.val (w : Warp) (i : Issue) (lit : Word) (l : Nat) (ty : Ty) : Opd → Dword
  | .hold r =>
    if ty = .i64 then pair64 (w.getHold l r.toNat) (w.getHold l (r.toNat + 1)) else zx (w.getHold l r.toNat)
  | .near r =>
    if ty = .i64 then pair64 (w.getNear l r.toNat) (w.getNear l (r.toNat + 1)) else zx (w.getNear l r.toNat)
  | .latch k => if ty = .i64 then w.getLatch l k.toNat else zx (lo32 (w.getLatch l k.toNat))
  | .special v => zx (specialVal w i l v)
  | .uniform r =>
    if ty = .i64 then pair64 (w.getUni r.toNat) (w.getUni (r.toNat + 1)) else zx (w.getUni r.toNat)
  | .imm v => immVal ty v
  | .lit => litVal ty lit

/-- A compact source as the operand it expands to (R68). -/
def Opd8.expand : Opd8 → Opd
  | .hold i => .hold (i.setWidth 8)
  | .near i => .near i
  | .latch i => .latch i
  | .special v => .special v
  | .uniform i => .uniform (i.setWidth 6)
  | .imm v => .imm (v.signExtend 8)

/-- A compact destination as the one it expands to (R68): `_` sets `nw`. -/
def Dst8.expand : Dst8 → Dst
  | .none => .none
  | .hold i => .reg (.hold (i.setWidth 8)) false
  | .near i => .reg (.near i) false
  | .uniform i => .reg (.uniform (i.setWidth 6)) false

/-- Header of a compact form: unguarded, no literal (R68). -/
def hdrC : Hdr := { guard := { neg := false, idx := 7 }, long := false, lit := 0 }

/-- Lanes of a set whose guard is true (R51). -/
def Machine.Warp.guarded (w : Warp) (set : Mask) (g : Guard) : Mask :=
  let m := w.predMask g.idx.toNat
  if g.neg then set &&& ~~~ m else set &&& m

/-- What an instruction names, for the checks of R59 items 6 to 9: sources and destinations with the number of
registers of each. -/
structure Shape where
  guard : Guard
  srcs  : List (Opd × Nat)
  dsts  : List (DReg × Nat)
  strand : Bool
  seals  : Bool
  /-- A uniform destination is written from the lowest guard-true lane (R147). -/
  xlane  : Bool := false
  /-- It may block its threads, which then resume by issuing it again (R141, R302). -/
  blocks : Bool := false
deriving DecidableEq, Repr

/-- The lanes in which an instruction with a destination has its effect: its guard-true lanes, and none for a uniform
destination when the guard is false in the lowest thread of the set (R51). -/
def Dst.lanes (d : Dst) (set g : Mask) : Mask :=
  match d with
  | .reg (.uniform _) _ => if hasLane g (lowest set) then g else 0
  | _ => g

/-- The same, of the destinations that a shape names. -/
def Shape.lanes (sh : Shape) (set g : Mask) : Mask :=
  let uni : Bool := sh.dsts.any (fun x => match x.1 with
    | .uniform _ => true
    | _ => false)
  if uni && !sh.xlane && !(hasLane g (lowest set)) then 0 else g

def Shape.plain (g : Guard) : Shape := { guard := g, srcs := [], dsts := [], strand := false, seals := false }

def Dst.regs (d : Dst) (n : Nat) : List (DReg × Nat) :=
  match d with
  | .none => []
  | .reg r _ => [(r, n)]

/-- Highest hold register named, plus one (R24). -/
def Opd.holdTop (o : Opd) (n : Nat) : Nat :=
  match o with
  | .hold r => r.toNat + n
  | _ => 0

def DReg.holdTop (d : DReg) (n : Nat) : Nat :=
  match d with
  | .hold r => r.toNat + n
  | _ => 0

/-- A hold register at or above the hold count (R24). -/
def Shape.beyond (sh : Shape) (w : Warp) : Bool :=
  sh.srcs.any (fun x => decide (w.hc < x.1.holdTop x.2)) || sh.dsts.any (fun x => decide (w.hc < x.1.holdTop x.2))

/-- A destination is a declared survivor of a thread's strand (R36, R37). -/
def Machine.Thread.survives (t : Thread) (r : Nat) : Bool :=
  decide (64 * t.survW.toNat ≤ r) && decide (r < 64 * t.survW.toNat + 64) && t.survM.getLsbD (r - 64 * t.survW.toNat)

def Shape.clobbers (sh : Shape) (t : Thread) : Bool :=
  sh.dsts.any (fun x => match x.1 with
    | .hold r => (List.range x.2).any (fun k => t.survives (r.toNat + k))
    | _ => false)

/-- A lane reads a lost latch or an unwritten near register (R33, R35). -/
def Opd.stale (w : Warp) (l n : Nat) : Opd → Bool
  | .latch k => !(hasLane (w.latchValid k.toNat) l)
  | .near r => (List.range n).any (fun k => !(hasLane (w.nearWritten (r.toNat + k)) l))
  | _ => false

/-- The first decode or operand exception of R59 items 6 to 9 that the set meets. -/
def Shape.check (sh : Shape) (w : Warp) (set : Mask) : Option Exc :=
  let ts := (laneList set).map (fun l => w.thread l)
  let g := sh.lanes set (w.guarded set sh.guard)
  let bad := maskOf (fun l => hasLane g l && sh.srcs.any (fun x => x.1.stale w l x.2))
  if !sh.strand && ts.any (fun t => t.needHdr && !(t.again && sh.blocks)) then some (Exc.of 0x07 set)
  else if sh.beyond w then some (Exc.of 0x0D set)
  else if ts.any (fun t => sh.clobbers t) then some (Exc.of 0x06 set)
  else if bad != 0 then some (Exc.of 0x05 bad)
  else none

end Sys2Proof
end

