-- ==== Sys2Proof/Machine/Flags.lean ====
section
/-! DEFINITION. The flag computations: conditions of `CMP` and `FCMP` (spec/03 R63, R64), how a comparison joins a
predicate (spec/05 R108, R109), and the reductions of the cross-lane family (spec/06 R153). -/

namespace Sys2Proof

open Machine

/-- Signed value of a width's operand. -/
def sInt (w : Width) (x : Dword) : Int :=
  match w with
  | .w32 => (lo32 x).toInt
  | .w64 => x.toInt

/-- Natural value of a width's operand. -/
def nNat (w : Width) (x : Dword) : Nat :=
  match w with
  | .w32 => (lo32 x).toNat
  | .w64 => x.toNat

/-- A condition of `CMP` (R63). -/
def CmpCond.holds (c : CmpCond) (w : Width) (a b : Dword) : Bool :=
  match c with
  | .eq => nNat w a == nNat w b
  | .ne => nNat w a != nNat w b
  | .lt => decide (sInt w a < sInt w b)
  | .le => decide (sInt w a ≤ sInt w b)
  | .gt => decide (sInt w b < sInt w a)
  | .ge => decide (sInt w b ≤ sInt w a)
  | .ltn => decide (nNat w a < nNat w b)
  | .len => decide (nNat w a ≤ nNat w b)
  | .gtn => decide (nNat w b < nNat w a)
  | .gen => decide (nNat w b ≤ nNat w a)
  | .tst => nNat w (a &&& b) != 0
  | .tstz => nNat w (a &&& b) == 0

/-- A condition of `FCMP` (R64): an ordered one is false with a NaN, one ending in `u` true. -/
def FCmpCond.holds (c : FCmpCond) (a b : Fl) : Bool :=
  let n := a.isNan || b.isNan
  match c with
  | .eq => Fl.eq a b
  | .ne => !n && !(Fl.eq a b)
  | .lt => Fl.lt a b
  | .le => Fl.lt a b || Fl.eq a b
  | .gt => Fl.lt b a
  | .ge => Fl.lt b a || Fl.eq a b
  | .num => !n
  | .nan => n
  | .neu => n || !(Fl.eq a b)
  | .ltu => n || Fl.lt a b
  | .leu => n || Fl.lt a b || Fl.eq a b
  | .gtu => n || Fl.lt b a
  | .geu => n || Fl.lt b a || Fl.eq a b
  | .equ => n || Fl.eq a b

/-- Value of an `FCMP` operand: 16-bit operands read bits [15:0] (R72), never flushed (R79). -/
def CmpFmt.value (f : CmpFmt) (x : Dword) : Fl :=
  match f with
  | .f32 => fp32.decode (lo32 x).toNat
  | .f16 => fp16.decode ((lo32 x).toNat % 65536)
  | .bf16 => bfp16.decode ((lo32 x).toNat % 65536)

/-- Join a comparison with a predicate as it stood before the write (R108, R109). -/
def Combine.join (cb : Combine) (pred : Nat → Bool) (c : Bool) : Bool :=
  match cb with
  | .none => c
  | .and n q => c && Bool.xor (pred q.toNat) n
  | .or n q => c || Bool.xor (pred q.toNat) n
  | .xor n q => Bool.xor c (Bool.xor (pred q.toNat) n)

/-- The identity of an exclusive scan (R153). -/
def RedOp.identity (op : RedOp) (w : Width) : Dword :=
  let ones : Dword := match w with
    | .w32 => 0xFFFFFFFF
    | .w64 => 0xFFFFFFFFFFFFFFFF
  let top : Dword := match w with
    | .w32 => 0x80000000
    | .w64 => 0x8000000000000000
  match op with
  | .add | .maxn | .or | .xor => 0
  | .min => ones ^^^ top
  | .max => top
  | .minn | .and => ones
  | .fadd => 0x80000000
  | .fmin | .fmax => 0x7FC00000

/-- Truncate a result to its width; the upper word of a 32-bit result is 0 (R95). -/
def trunc (w : Width) (x : Dword) : Dword :=
  match w with
  | .w32 => zx (lo32 x)
  | .w64 => x

/-- Combine two values of a reduction (R153). -/
def RedOp.combine (op : RedOp) (w : Width) (flush : Bool) (x y : Dword) : Dword :=
  match op with
  | .add => trunc w (x + y)
  | .min => if sInt w y < sInt w x then y else x
  | .max => if sInt w x < sInt w y then y else x
  | .minn => if nNat w y < nNat w x then y else x
  | .maxn => if nNat w x < nNat w y then y else x
  | .and => x &&& y
  | .or => x ||| y
  | .xor => x ^^^ y
  | .fadd =>
    BitVec.ofNat 64 (fp32.output flush .rne (Fl.add .rne (fp32.input flush (lo32 x).toNat)
      (fp32.input flush (lo32 y).toNat)))
  | .fmin => BitVec.ofNat 64 (fp32.minmax false false (lo32 x).toNat (lo32 y).toNat)
  | .fmax => BitVec.ofNat 64 (fp32.minmax true false (lo32 x).toNat (lo32 y).toNat)

end Sys2Proof
end

