-- ==== Sys2Proof/Machine/Issue.lean ====
section
/-! DEFINITION. Issuing one instruction of the set in `State.iss`: the operand checks of R59, the effect of an
instruction that only reads and writes registers (a `Desc`), results in flight, and the ends of a strand
(R39 to R41). -/

namespace Sys2Proof.Machine

/-- Address of the next instruction (R47). -/
def Issue.next (i : Issue) : Dword := canon (i.pc + BitVec.ofNat 64 (4 * i.words))

/-- A thread goes on at an address; the instruction counts once its strand commits (R422). -/
def Thread.goto (t : Thread) (pc : Dword) : Thread := { t with pc := pc, since := t.since + 1, stat := .ready }

/-- Threads of `m` go on at the next instruction. -/
def Warp.advanceIn (w : Warp) (i : Issue) (m : Mask) : Warp := w.mapThreads m (fun _ t => t.goto i.next)

/-- Every thread of the set goes on at the next instruction. -/
def Warp.advance (w : Warp) (i : Issue) : Warp := w.advanceIn i i.mask

/-- The set waits at its instruction, which is tried again (number 0; 1 at an other-warp `LPUSH`). -/
def State.waits (s : State) (n : Nat) : State :=
  s.setIw (s.iw.mapThreads s.iss.mask (fun _ t => { t with stat := .stalled n }))

/-- At the end of a strand in which a gang form issued, the set waits until every member has reached the end of its own
(R254), a strand behind the trap handler aside: the state in which it waits, if it does. -/
def State.gangHold (s : State) : Option State :=
  let w := s.iw
  if w.wide && !w.trapWide && !w.gangGrps.isEmpty && !((s.gangOthers s.iss.gw).all (fun x => (s.warp x).gangEnd)) then
    some ((s.setIw { w with gangEnd := true }).waits 0)
  else none

/-- A member that stands at the end of its gang strand commits with the others: its threads' strand is over where they stand
(R245, R254; assumption 31), and its instructions are committed (R422). -/
def State.gangCommit (s : State) (gw : Nat) : State :=
  let s := s.commitAcc (quadOfWarp gw)
  let w := s.warp gw
  s.setWarp gw { w.mapThreads w.live (fun _ t => { t with rpc := t.pc, retired := t.retired + t.since, since := 0 }) with
    wide := false, foot := [], gangGrps := [], gangEnd := false }

/-- Run a meaning behind the checks of R59 items 6 to 9, where an exception is taken (R206), and behind the wait of a
gang strand's end. -/
def State.guardedRun (s : State) (sh : Shape) (body : State) : Res :=
  match sh.check s.iw s.iss.mask with
  | some e => .next (s.take e)
  | none =>
    if sh.seals || sh.strand then .next (s.gangHold.getD body) else .next body

/-- Where a register instruction puts its result. -/
inductive Target where
  | reg (d : Dst) (wide : Bool)
  | pred (p : BitVec 3)
deriving DecidableEq, Repr

/-- An instruction that reads and writes registers only. `fn` gives a lane's result from the flush flag, the
guard-true lanes, every lane's sources and every lane's predicates; `xlane` is the rule of R147 for a uniform
destination. -/
structure Desc where
  guard : Guard
  lit   : Word
  srcs  : List (Opd × Ty)
  tgt   : Target
  xlane : Bool
  fn    : Bool → Mask → (Nat → List Dword) → (Nat → Nat → Bool) → Nat → Dword

def Desc.shape (d : Desc) : Shape :=
  { guard := d.guard, srcs := d.srcs.map (fun x => (x.1, x.2.regs)),
    dsts := (match d.tgt with
      | .reg r wide => r.regs (if wide then 2 else 1)
      | .pred _ => []),
    strand := false, seals := false, xlane := d.xlane }

/-- Sources of a lane. -/
def Desc.args (d : Desc) (w : Warp) (i : Issue) (l : Nat) : List Dword :=
  d.srcs.map (fun x => x.1.val w i d.lit l x.2)

/-- The value of a lane. -/
def Desc.value (d : Desc) (w : Warp) (i : Issue) (l : Nat) : Dword :=
  d.fn w.flush (w.guarded i.mask d.guard) (d.args w i) (fun l p => w.getPred l p) l

/-- The lane whose value a uniform destination takes, if it is written (R25, R51, R147). -/
def Desc.uniLane (d : Desc) (w : Warp) (i : Issue) : Option Nat :=
  let g := w.guarded i.mask d.guard
  if d.xlane then (if g = 0 then none else some (lowest g))
  else if hasLane g (lowest i.mask) then some (lowest i.mask) else none

/-- The value each guard-true lane's new k1 holds: its own, or for a uniform destination the one value (R25). Where the
guard is false in the set's lowest thread, that value is the one of its sources all the same (assumption 49): R30 makes the
new k1 valid in the guard-true lanes, and the spec does not state its value. -/
def Desc.latchVal (d : Desc) (w : Warp) (i : Issue) (l : Nat) : Dword :=
  match d.tgt with
  | .reg (.reg (.uniform _) _) _ =>
    d.value w i (if d.xlane then lowest (w.guarded i.mask d.guard) else lowest i.mask)
  | _ => d.value w i l

/-- Write the results (R51, R52): per lane, or once for a uniform destination. -/
def Desc.write (d : Desc) (w : Warp) (i : Issue) (acc : Warp) : Warp :=
  match d.tgt with
  | .pred p =>
    let g := w.guarded i.mask d.guard
    acc.setPredIn p.toNat g (maskOf (fun l => (d.value w i l).getLsbD 0))
  | .reg .none _ => acc
  | .reg (.reg (.uniform r) nw) wide =>
    match d.uniLane w i with
    | some l => if nw then acc else acc.writeVal l (.uniform r) wide (d.value w i l)
    | none => acc
  | .reg (.reg r nw) wide =>
    if nw then acc
    else (laneList (w.guarded i.mask d.guard)).foldl (fun t l => t.writeVal l r wide (d.value w i l)) acc

/-- The latches after a fixed-latency, result-producing instruction (R13, R30). -/
def Desc.latch (d : Desc) (w : Warp) (i : Issue) (acc : Warp) : Warp :=
  match d.tgt with
  | .pred _ => acc
  | .reg _ _ => acc.shiftLatches i.mask (w.guarded i.mask d.guard) (d.latchVal w i)

/-- The whole effect on the warp of a fixed-latency instruction, its PCs aside. -/
def Desc.effect (d : Desc) (w : Warp) (i : Issue) : Warp := d.write w i (d.latch w i w)

/-- Issue a fixed-latency register instruction (R96). -/
def Desc.run (d : Desc) (s : State) : Res :=
  s.guardedRun d.shape (s.setIw ((d.effect s.iw s.iss).advance s.iss))

/-- Add an operation in flight: its near destinations are marked at issue (R34, R97). -/
def State.launchFlight (s : State) (f : Flight) : State :=
  let s := { s with flights := s.flights ++ [{ f with id := s.nextId }], nextId := s.nextId + 1 }
  let w := s.warp f.gw
  s.setWarp f.gw (f.writes.foldl (fun w x => w.markNear x) w)

/-- An operation of the issuing set, with nothing special about it. -/
def State.flightOf (s : State) (k : FKind) (m : Mask) (due : Nat) (exact : Bool) (ws : List RegW) : Flight :=
  { id := 0, kind := k, gw := s.iss.gw, mask := m, own := (s.iw.vdev, s.iw.lseq, s.iw.pseq), iss := s.iss, due := due, exact := exact, writes := ws,
    kill := 0, killed := 0, spc := s.iw.spcOf m, behind := [], swaths := [], sects := [], clo := none, sealed := false, spot := none, sample := none }

/-- The clock of the warp's quadrant has come far enough (R97, R192, R204, R255). -/
def State.ripe (s : State) (f : Flight) : Bool := decide (f.due ≤ (s.quad f.iss.quad).clock)

/-- Register writes of a long-latency result: per guard-true lane, or once (R25, R52). With `nw` nothing. Only a destination that will be
written is pending until then (R97; assumption 49). -/
def Desc.flightWrites (d : Desc) (w : Warp) (i : Issue) : List RegW :=
  match d.tgt with
  | .reg (.reg (.uniform r) false) wide =>
    match d.uniLane w i with
    | some l => regWrites l (.uniform r) wide (d.value w i l)
    | none => []
  | .reg (.reg r false) wide =>
    ((laneList (w.guarded i.mask d.guard)).map (fun l => regWrites l r wide (d.value w i l))).flatten
  | _ => []

/-- A result that lands while its warp has a run-ahead set lands in the shadow too (R216). -/
def State.landShadow (s : State) (f : Flight) : State :=
  match s.runs.find? (fun x => x.1 == f.gw) with
  | none => s
  | some (_, r) => { s with runs := NMap.put s.runs f.gw { r with shadow := f.writes.foldl Warp.applyW r.shadow } }

/-! ### Ends of a strand (R39 to R41, R245, R256) -/

/-- A thread has the strand at `a` still to execute again: it is to restart there, or comes back there from the trap handler. -/
def Thread.owes (t : Thread) (ends : Bool) (a : Dword) : Bool := (!ends && t.rpc == a) || (t.trap.inTrap && t.trap.rpc == a)

/-- The footprints that stay held when the threads of `m` end their strands: those of a strand that stands behind the trap
handler, or that some thread has yet to execute again (R256). -/
def Warp.footKept (w : Warp) (m : Mask) : List (Nat × Nat) :=
  if w.trapWide || (laneList w.live).any (fun l => (w.thread l).owes (hasLane m l) w.footAt) then w.foot else []

/-- The threads of `m` end their strand: a warp-wide strand commits its image with the members of its gangs, and footprints
are released (R41, R245, R254, R256). -/
def State.endWide (s : State) (gw : Nat) (m : Mask) : State :=
  let w := s.warp gw
  if w.wide then
    let s := (s.gangOthers gw).foldl State.gangCommit (s.commitAcc (quadOfWarp gw))
    s.setWarp gw { s.warp gw with wide := false, foot := if w.trapWide then w.foot else [], gangGrps := [], gangEnd := false }
  else if w.foot.isEmpty then s
  else s.setWarp gw { w with foot := w.footKept m }

/-- The value v_k of R423 as a sealing instruction issues. -/
def Thread.vk (t : Thread) : Dword := t.retired + t.since

/-- Address of a thread's log dword k (R423). -/
def logAddr (c : Contract) (w lane k : Nat) : Dword :=
  let rcap := field (NMap.get 0 c.debug 2) 63 48
  NMap.get 0 c.debug 1 + BitVec.ofNat 64 (8 * rcap * (32 * w + lane) + 8 * k)

/-- Record or compare one thread's count before its k-th sealing instruction (R423): lanes that differ. -/
def State.logLane (s : State) (mode l : Nat) : State × Option (Dword × Nat) :=
  let w := s.iw
  let t := w.thread l
  let c := s.contract w.vdev
  let k := t.seals + 1
  if k < field (NMap.get 0 c.debug 2) 63 48 then
    let va := logAddr c w.num l k
    if mode = 1 then ((s.feStore dieA w.vdev va (leBytes 8 t.vk.toNat)).1, none)
    else
      match s.feRead dieA w.vdev va 8 with
      | (s, .ok bs) => if leNat bs = t.vk.toNat then (s, none) else (s, some (BitVec.ofNat 64 (leNat bs), k))
      | (s, .error _) => (s, none)
  else (s, none)

/-- The log of a sealing instruction for the threads of `m`, and the `DIVERGED` record of those that differ (R423,
R424). -/
def State.sealLog (s : State) (m : Mask) : State :=
  let w := s.iw
  match s.launch? w.vdev w.lseq with
  | none => s
  | some x =>
    if !x.replay || (x.rmode != 1 && x.rmode != 2) then s
    else
      let r := (laneList m).foldl (fun (acc : State × List (Nat × Dword × Nat)) l =>
        match acc.1.logLane x.rmode l with
        | (s, none) => (s, acc.2)
        | (s, some (v, k)) => (s, acc.2 ++ [(l, v, k)])) (s, [])
      match r.2 with
      | [] => r.1
      | (l, v, k) :: _ =>
        let s := r.1
        let m := maskOf (fun l => r.2.any (fun x => x.1 == l))
        let base := s.recOf (Exc.of 0x35 m) false
        let tail := [v, (w.thread l).vk, w.groups.setWidth 64, BitVec.ofNat 64 k]
        (s.record { base with tail := some tail } (s.contract w.vdev).attached).1

/-- A thread past a non-idempotent sealing instruction: its restart PC becomes the address where it goes on, which
must hold a header (R40, R41). -/
def Thread.sealAt (t : Thread) (pc : Dword) : Thread :=
  { t with pc := pc, rpc := pc, needHdr := true, again := false, retired := t.retired + t.since + 1, since := 0,
           seals := t.seals + 1, stat := .ready }

/-- The strand seals for the threads of `m` (R39): the log, the commit, and each goes on at its own address. -/
def State.sealIn (s : State) (m : Mask) (dst : Nat → Dword) : State :=
  if m = 0 then s
  else
    let s := (s.sealLog m).endWide s.iss.gw m
    s.setIw (s.iw.mapThreads m (fun l t => t.sealAt (dst l)))

/-- The set's strand seals and every thread goes on at the next instruction. -/
def State.sealNext (s : State) : State := s.sealIn s.iss.mask (fun _ => s.iss.next)

/-- A thread blocked at a sealing instruction: it waits at a boundary (R41). -/
def Thread.block (t : Thread) (st : TStat) : Thread :=
  { t with stat := st, rpc := t.pc, needHdr := false, again := false, retired := t.retired + t.since, since := 0, seals := t.seals + 1 }

/-- The set seals at a blocking instruction: threads of `m` block as `st` says, the others go on (R39, R41). -/
def State.sealBlock (s : State) (m : Mask) (st : TStat) : State :=
  let s := (s.sealLog s.iss.mask).endWide s.iss.gw s.iss.mask
  s.setIw (s.iw.mapThreads s.iss.mask (fun l t => if hasLane m l then t.block st else t.sealAt s.iss.next))

end Sys2Proof.Machine
end

