-- ==== Sys2Proof/Machine/Access.lean ====
section
/-! DEFINITION. How a thread reaches memory: buffer records and addresses (spec/08 R178 to R181), lines and their
translation (R182), watch ranges (spec/22 R415), reads and writes of one lane in device memory or through a remote window
(spec/24 R430), and writes that are held (spec/20 R389, R399), scratchpad addresses and bank passes (R173, R190, R191), page
faults and the run-ahead batch (spec/09 R215 to R219), and samples of memory instructions (R420). -/

namespace Sys2Proof.Machine

/-! ### Buffer records and addresses -/

/-- A buffer record as a program's registers hold it (R178). -/
structure BufRec where
  base   : Dword
  extent : Nat
  w3     : Word
deriving DecidableEq, Repr

/-- The record `w`(4m). -/
def Warp.bufRec (w : Warp) (m : BitVec 4) : BufRec :=
  { base := pair64 (w.getUni (4 * m.toNat)) (w.getUni (4 * m.toNat + 1)), extent := (w.getUni (4 * m.toNat + 2)).toNat,
    w3 := w.getUni (4 * m.toNat + 3) }

def BufRec.stride (r : BufRec) : Nat := bits r.w3.toNat 15 0
def BufRec.swp (r : BufRec) : Nat := bits r.w3.toNat 20 16
def BufRec.swm (r : BufRec) : Nat := bits r.w3.toNat 23 21
def BufRec.ro (r : BufRec) : Bool := r.w3.getLsbD 25
def BufRec.clamp (r : BufRec) : Bool := r.w3.getLsbD 26
def BufRec.tier (r : BufRec) : Nat := bits r.w3.toNat 28 27

/-- A bad record, or a write through a read-only one (R179). -/
def BufRec.bad (r : BufRec) (write : Bool) : Bool :=
  bits r.w3.toNat 31 29 != 0 || r.w3.getLsbD 24 || r.tier == 3 || decide (1 < r.swm) ||
    (r.swm == 1 && decide (r.swp < 7)) || !(canonical r.base) || (write && r.ro)

/-- The swizzle of a mode and parameter (R180). -/
def swizzle (swm swp off : Nat) : Nat :=
  if swm = 1 then off - bits off 6 4 * 16 + Nat.xor (bits off 6 4) (off / 2 ^ swp % 8) * 16 else off

def BufRec.swizzle (r : BufRec) (off : Nat) : Nat := Machine.swizzle r.swm r.swp off

/-- What a lane's address comes to (R181, R190, R191). -/
inductive LaneAddr where
  | loc (a : Nat)
  | clamp
  | fail (cause : Byte)
deriving DecidableEq, Repr

/-- A lane's device address (R181). -/
def BufRec.addr (r : BufRec) (i size : Nat) : LaneAddr :=
  if r.extent ≤ i then (if r.clamp then .clamp else .fail 0x0B)
  else
    let a := r.base + BitVec.ofNat 64 (r.swizzle (i * r.stride))
    if !(canonical a) then .fail 0x0B
    else if a.toNat % size ≠ 0 then .fail 0x0C
    else .loc a.toNat

/-- Lanes that fail, by cause, in the order of R205. -/
def failsOf (as : List (Nat × LaneAddr)) : List Exc :=
  [(0x0F : Byte), 0x0B, 0x0D, 0x0C].filterMap (fun c =>
    let m := maskOf (fun l => as.any (fun x => x.1 == l && x.2 == .fail c))
    if m = 0 then none else some (Exc.of c m))

/-- The lanes with an address, ascending. -/
def locsOf (as : List (Nat × LaneAddr)) : List (Nat × Nat) :=
  as.filterMap (fun x => match x.2 with
    | .loc a => some (x.1, a)
    | _ => none)

def maskOfLanes (ls : List Nat) : Mask := maskOf (fun l => ls.contains l)

/-! ### Watch ranges (R415) -/

/-- The lowest byte of an access of `n` bytes that a watch slot of the device covers. -/
def Contract.watchHit (c : Contract) (write : Bool) (a n : Nat) : Option Nat :=
  let va := a % 2 ^ 57
  (List.range 8).foldl (fun acc i =>
    let d0 := NMap.get 0 c.debug (4 + 2 * i)
    let kind := field d0 63 62
    let lo := field d0 56 0
    let len := field (NMap.get 0 c.debug (5 + 2 * i)) 63 32
    if (kind == 3 || (kind == 2 && write)) && decide (va < lo + len) && decide (lo < va + n) then
      let b := max va lo
      match acc with
      | some x => some (min x b)
      | none => some b
    else acc) none

/-- The 64 KiB page of an address. -/
def pageOf (a : Nat) : Dword := canon (BitVec.ofNat 64 (a - a % 65536))

/-- The exception of the lanes that hit a watch: the page is that of the lowest covered byte (R415). -/
def watchExc (hits : List (Nat × Nat)) : List Exc :=
  match hits with
  | [] => []
  | h :: t =>
    let b := t.foldl (fun m x => min m x.2) h.2
    [{ Exc.of 0x22 (maskOfLanes (hits.map (·.1))) with pages := [pageOf b] }]

/-! ### Lines and their translation (R182) -/

/-- The distinct lines of the lanes' addresses, ascending. -/
def linesOf (locs : List (Nat × Nat)) : List Nat := locs.foldl (fun ls x => insertNat (x.2 / 128) ls) []

/-- Sectors touched. -/
def sectsOf (locs : List (Nat × Nat)) : List Nat := locs.foldl (fun ls x => insertNat (x.2 / 32) ls) []

/-- Translate lines in ascending order. -/
def State.translateLines (s : State) (die vdev : Nat) (write : Bool) : List Nat → State × List (Nat × TRes)
  | [] => (s, [])
  | ln :: ls =>
    let r := s.translate die vdev (BitVec.ofNat 64 (128 * ln)) write false
    let t := r.1.translateLines die vdev write ls
    (t.1, (ln, r.2) :: t.2)

/-- The place of an address in a translated line. -/
def placeOf (lines : List (Nat × TRes)) (a : Nat) : TRes :=
  match lines.find? (fun x => x.1 == a / 128) with
  | some (_, .ok k mig) => .ok (k + a % 128) mig
  | some (_, r) => r
  | none => .fault cPageNotPresent

/-- Lanes whose line failed, with their pages in the order met: by line, then lane; one exception for each cause
(R210, R215). -/
def pageExcs (lines : List (Nat × TRes)) (locs : List (Nat × Nat)) : List Exc :=
  [cPageNotPresent, cPageProtection].filterMap (fun c =>
    let bad := lines.filter (fun x => x.2 == .fault c)
    let m := maskOfLanes ((locs.filter (fun x => bad.any (fun y => y.1 == x.2 / 128))).map (·.1))
    if m = 0 then none
    else some { Exc.of c m with pages := (bad.map (fun x => pageOf (128 * x.1))).eraseDups })

/-- A line of a page table that cannot be read (R385): its lanes' causes. -/
def killExcs (lines : List (Nat × TRes)) (locs : List (Nat × Nat)) : List Exc :=
  [cReplatLost, cUncorrectable].filterMap (fun c =>
    let m := maskOfLanes ((locs.filter (fun x => lines.any (fun y => y.1 == x.2 / 128 && y.2 == .fault c))).map (·.1))
    if m = 0 then none else some (Exc.of c m))

/-! ### One lane's read and write of device memory -/

/-- A held write is of the thread in a lane of a warp (R389): it stays the thread's own when the warp has moved to another slot. -/
def Held.isOf (h : Held) (w : Warp) (lane : Nat) : Bool :=
  h.lane == lane && h.num == w.num && w.ofParcel h.vdev h.lseq h.pseq

/-- Held writes of threads of the warp that stands in a slot now, in order. -/
def State.heldBy (s : State) (gw : Nat) : List Held :=
  let w := s.warp gw
  s.held.filter (fun h => decide (h.lane < 32) && h.isOf w h.lane)

/-- A thread has a held write to bytes of an access at an address, which names the key `k` (R187). -/
def State.ownHeld (s : State) (gw lane a k n : Nat) : Bool :=
  s.held.any (fun h => h.isOf (s.warp gw) lane && h.touches a k n)

/-- Some thread of `m` has a held write. -/
def State.anyHeld (s : State) (gw : Nat) (m : Mask) : Bool := (s.heldBy gw).any (fun h => hasLane m h.lane)

/-- The place of an access as a memory key; beyond every key for a place elsewhere. -/
def placeKey : TRes → Nat
  | .ok k _ => k
  | _ => 2 ^ 64

/-- An access of the issuing set waits at its instruction behind held writes (R187, R194, R389): some lane has one to the bytes that it
touches, or, with `rel`, some lane has any. -/
def State.behindHeld (s : State) (rel : Bool) (m : Mask) (n : Nat) (places : List (Nat × Nat × TRes)) : Bool :=
  (rel && s.anyHeld s.iss.gw m) ||
    places.any (fun x => match x.2.2 with
      | .fault _ => false
      | p => s.ownHeld s.iss.gw x.1 x.2.1 (placeKey p) n)

/-- The places of the lanes in their translated lines. -/
def placesOf (lines : List (Nat × TRes)) (locs : List (Nat × Nat)) : List (Nat × Nat × TRes) :=
  locs.map (fun x => (x.1, x.2, placeOf lines x.2))

/-- What one lane's read gives: the value, or a cause; the swath it waits behind. -/
structure LaneRead where
  s : State
  val : Except Byte Nat
  swath : Option (Bool × Nat)

/-- Read `n` bytes for a lane at its place (R186, R399, R400, R430). -/
def State.laneRead (s : State) (vdev a n : Nat) : TRes → LaneRead
  | .fault c => { s := s, val := .error c, swath := none }
  | .window j =>
    match s.remote vdev j .load a (leBytes 8 n) with
    | (s, some v) => { s := s, val := .ok (leNat (leBytes n v.toNat)), swath := none }
    | (s, none) => { s := s, val := .error cRemote, swath := none }
  | .ok k _ =>
    match s.meetRead k n with
    | .error c => { s := s, val := .error c, swath := none }
    | .ok s => { s := s, val := .ok (leNat (s.bytes k n)), swath := s.inMotion k }

/-- A write that waits, of the issuing set's lane. -/
def State.heldOf (s : State) (grp lane a k : Nat) (data : List Byte) (sw : Option (Bool × Nat)) : Held :=
  let w := s.iw
  { id := s.nextId, grp := grp, smp := none, vdev := w.vdev, va := BitVec.ofNat 64 a, key := k, data := data, atom := none, dst := .none,
    gw := s.iss.gw, num := w.num, lane := lane, pc := s.iss.pc, spc := (w.thread lane).rpc, lseq := w.lseq, pseq := w.pseq, fseq := none,
    swath := sw }

/-- What one lane's write does: the state, a cause, the held write it became; whether a peer could not perform it (R430). -/
structure LaneWrite where
  s : State
  cause : Option Byte
  held : List Nat
  done : Option (Nat × Nat)
  lost : Bool

/-- A write joins the held ones. -/
def State.hold (s : State) (h : Held) : State := { s with held := s.held ++ [h], nextId := s.nextId + 1 }

/-- A lower lane's write of the same instruction to common bytes is held: the lanes' writes keep their order (R188, R197). -/
def State.mateHeld (s : State) (grp a k n : Nat) : Bool := s.held.any (fun h => h.grp == grp && h.touches a k n)

/-- Write bytes for a lane of the issuing set at its place: performed, held (R389, R399), or sent (R430); `grp` is the
number of its instruction's first held write. -/
def State.laneWrite (s : State) (grp lane a : Nat) (data : List Byte) : TRes → LaneWrite
  | .fault c => { s := s, cause := some c, held := [], done := none, lost := false }
  | .window j =>
    let r := s.remote s.iw.vdev j .store a data
    { s := r.1, cause := none, held := [], done := none, lost := r.2.isNone }
  | .ok k mig =>
    let sw := s.inMotion k
    if mig || sw.isSome || s.mateHeld grp a k data.length then
      { s := s.hold (s.heldOf grp lane a k data sw), cause := none, held := [s.nextId], done := none, lost := false }
    else
      match s.store k data with
      | .error c => { s := s, cause := some c, held := [], done := none, lost := false }
      | .ok s => { s := s, cause := none, held := [], done := some (k, data.length), lost := false }

/-- Stores that a peer could not perform are dropped: an asynchronous record names the station mark, and the parcel ends on the
program-error path (R221, R430). `was` is the issuing warp as the instruction found it. -/
def State.dropRemote (s : State) (was : Warp) (m : Mask) : State :=
  if m = 0 || !(s.resident.contains s.iss.gw && (s.warp s.iss.gw).ofParcel was.vdev was.lseq was.pseq) then s
  else
    ((s.record { Rec.of cRemote s.iss.gw m was.vdev was.lseq s.iss.pc (was.spcOf m) with edit := was.edit } false).1).endParcel
      was.vdev was.lseq was.pseq cRemote

/-- A sector that the lanes of one store cover together gets fresh check bits (R182, R400). -/
def State.coverSectors (s : State) (done : List (Nat × Nat)) : State :=
  let whole (x : Nat) : Bool := (List.range 32).all (fun i =>
    done.any (fun d => decide (d.1 ≤ 32 * x + i) && decide (32 * x + i < d.1 + d.2)))
  { s with lost := s.lost.filter (fun x => !whole x), badSec := s.badSec.filter (fun x => !whole x) }

/-! ### Page faults and the run-ahead batch (R215 to R219) -/

/-- End a warp's run-ahead: a record carries each batch, and its threads park (R218, R219). -/
def State.endRun (s : State) (gw : Nat) : State :=
  match s.runs.find? (fun x => x.1 == gw) with
  | none => s
  | some (_, r) =>
    r.batches.foldl (fun (s : State) b =>
      let a := s.recordBatch gw r.fpc b
      a.1.park gw b.lanes a.2 false) { s with runs := NMap.drop s.runs gw }

/-- The batch of one page fault of the issuing set (R218); under `early` its record takes its number at the stop (R210). -/
def State.openBatch (s : State) (early : Bool) (e : Exc) : State × FaultBatch :=
  let w := s.iw
  let ps := addPages [] false e.pages
  let r := s.reserve w.vdev
  let b : FaultBatch :=
    { cause := e.cause, lanes := w.stopped s.iss.mask e.mask, rmask := e.mask, spc := w.spcOf e.mask, pages := ps.1, ovr := ps.2,
      runa := false, fseq := if early then some r.2 else none }
  (if early then r.1 else s, b)

/-- Form a run-ahead set: the threads that page faults stop run ahead together in a shadow of the warp, with the results of
the faulting instruction poisoned; one run-ahead that the warp already holds stops (R216). -/
def State.startRun (s : State) (bs : List FaultBatch) (poison : List (Nat × Nat)) : State :=
  let gw := s.iss.gw
  let s := s.endRun gw
  let w := s.warp gw
  let f := bs.foldl (fun m b => m ||| b.lanes) 0
  let r : Run :=
    { lanes := f, pc := s.iss.next, since := s.iss.clk, count := 0, fpc := s.iss.pc, batches := bs, shadow := w, poison := poison }
  let s := s.setWarp gw (w.mapThreads f (fun _ t => { t with stat := .runAhead }))
  { s with runs := NMap.put s.runs gw r }

/-- Poison keys of a destination's registers in lanes (levels 0 hold, 1 near, 3 uniform). -/
def poisonOf (d : Dst) (n : Nat) (m : Mask) : List (Nat × Nat) :=
  match d with
  | .none => []
  | .reg (.hold i) _ => ((laneList m).map (fun l => (List.range n).map (fun k => (0, 256 * l + (i.toNat + k))))).flatten
  | .reg (.near i) _ => ((laneList m).map (fun l => (List.range n).map (fun k => (1, 16 * l + (i.toNat + k))))).flatten
  | .reg (.uniform i) _ => (List.range n).map (fun k => (3, i.toNat + k))

/-- Take the exceptions of a memory instruction that does not seal: page faults go to one run-ahead with the registers of
the destination poisoned (R215, R216). Of several causes each takes
its number in order (R210). -/
def State.takeMem (s : State) (es : List Exc) (d : Dst) (n : Nat) : State :=
  s.takeBy es (fun es =>
    if !(es.any Exc.isPage) then es.foldl State.take s
    else
      let several : Bool := decide (2 ≤ es.length)
      let old := s.endRun s.iss.gw
      let r := es.foldl (fun (a : State × List FaultBatch) e =>
        if e.isPage then
          let x := a.1.openBatch several e
          (x.1, a.2 ++ [x.2])
        else (a.1.take e, a.2)) (old, [])
      r.1.startRun r.2 (poisonOf d n (r.2.foldl (fun m b => m ||| b.lanes) 0)))

/-! ### Scratchpad -/

/-- The offset of a scratchpad access (R190). -/
def scrOff (a b : Dword) : Nat := (lo32 a + lo32 b).toNat

/-- A lane's place in its own core's scratchpad, as a memory key (R190). -/
def State.ldsAddr (s : State) (a b : Dword) (size : Nat) : LaneAddr :=
  let ea := scrOff a b
  match s.scratch s.iw (coreOfQuad s.iss.quad) ea size with
  | none => .fail 0x0D
  | some k => if ea % size ≠ 0 then .fail 0x0C else .loc k

/-- The core of a tract and the offset that a tract-wide scratchpad address names: `CORE` XOR t[24:23] (R191). -/
def State.ldxPlace (s : State) (core : BitVec 2) (t : Nat) : Option (Nat × Nat) :=
  if bits t 31 25 ≠ 0 then none
  else some (tractOfCore (coreOfQuad s.iss.quad) * 4 + Nat.xor core.toNat (bits t 24 23), bits t 22 0)

/-- Another core of the tract that a resurvey drain keeps closed (R351). -/
def State.closedTo (s : State) (c : Nat) : Bool :=
  c != coreOfQuad s.iss.quad && (s.core c).survey != .none

/-- An access that must wait for such a core. -/
def State.ldxWaits (s : State) (core : BitVec 2) (t : Nat) : Bool :=
  match s.ldxPlace core t with
  | some (c, _) => s.closedTo c
  | none => false

/-- A lane's place in a scratchpad of the tract (R191). -/
def State.ldxAddr (s : State) (core : BitVec 2) (a b : Dword) (size : Nat) : LaneAddr :=
  match s.ldxPlace core (scrOff a b) with
  | none => .fail 0x0D
  | some (c, off) =>
    match s.scratch s.iw c off size with
    | none => .fail 0x0D
    | some k => if off % size ≠ 0 then .fail 0x0C else .loc k

/-- Bank of a scratchpad line, as a number over all cores (R172). -/
def State.bankOf (s : State) (k : Nat) : Nat :=
  let a := k - 3 * 2 ^ 48
  let core := a / 2 ^ 23
  let bank := (a % 2 ^ 23) / 131072
  match ([0, 1, 2, 3].map (fun q => s.setOf core q)).find? (fun x => x.1 ≤ bank && bank < x.1 + x.2) with
  | none => 0
  | some (base, n) =>
    core * 64 + (bankRow (setLog n) base (NMap.get 0 (s.core core).keys base).toNat (a % 2 ^ 23 - base * 131072)).1

/-- Passes of a scratchpad instruction: the largest number of distinct lines in one bank (R173). -/
def State.passes (s : State) (locs : List (Nat × Nat)) : Nat :=
  let lines := locs.foldl (fun ls x => insertNat (x.2 / 16) ls) []
  let bs := lines.map (fun ln => s.bankOf (16 * ln))
  bs.foldl (fun m b => max m ((bs.filter (· == b)).length)) 0

/-- Clock of the last pass, the next scratchpad access of the quadrant starting after it (R173). An access that issues while
an earlier one of the quadrant still runs passes is performed in its issue clock, and its passes follow the earlier ones
(assumption 54): R173 has the first pass in the issue clock, and also the next access after the last pass. -/
def State.bankEnd (s : State) (p : Nat) : State × Nat :=
  let q := s.quad s.iss.quad
  let last := max s.iss.clk q.bankFree + (p - 1)
  (s.setQuad s.iss.quad { q with bankFree := last + 1 }, last)

/-! ### Samples of memory instructions (R420) -/

/-- Count a MEM or ATOMIC instruction; every P-th is sampled. Of its guard-true lanes `act`, those of `back` get data or perform a store;
the lanes' data return together, so that the lowest of them is `LAST`. -/
def State.memSample (s : State) (act back : Mask) (sect lines : Nat) : State × Option MemSample :=
  let q := s.quad s.iss.quad
  let m := q.sampler
  if m.mode = 2 ∧ m.vdev = s.iw.vdev then
    let n := m.next + 1
    if n = m.per then
      (s.setQuad s.iss.quad { q with sampler := { m with next := 0 } },
       some { run := m.start, pc := s.iss.pc, act := act, last := lowest (if back = 0 then act else back), sect := sect % 256, lines := lines % 256, rpl := 0,
              clk := s.iss.clk })
    else (s.setQuad s.iss.quad { q with sampler := { m with next := n } }, none)
  else (s, none)

/-- Header dwords of a sample buffer (R421). -/
def Sampler.header (m : Sampler) : List Dword :=
  [BitVec.ofNat 64 (m.fill * 2 ^ 32 + m.drop), BitVec.ofNat 64 (m.cap * 2 ^ 32 + m.per), BitVec.ofNat 64 m.start, 0, 0, 0,
   0, 0]

/-- Held writes from number `n` on are those of a quadrant's sampler (R421). -/
def State.markSampler (s : State) (q n : Nat) : State :=
  { s with held := s.held.map (fun h => if n ≤ h.id then { h with smp := some q } else h) }

/-- The run of a quadrant's sampler that started at a clock: the present one, or one that has been stopped since (R426). -/
def Quad.runOf (x : Quad) (start : Nat) : Option Sampler := (x.sampler :: x.oldRuns).find? (fun m => m.start == start)

/-- Keep the counts of a run. -/
def Quad.setRun (x : Quad) (m : Sampler) : Quad :=
  if x.sampler.start = m.start then { x with sampler := m }
  else { x with oldRuns := x.oldRuns.map (fun o => if o.start = m.start then m else o) }

/-- Write a record of a run of a quadrant's sampler, or count it as dropped, and bring the run's header up to date (R421). -/
def State.sampleRecord (s : State) (q start : Nat) (ds : List Dword) : State :=
  let die := dieOfQuad q
  let put (t : State) (m : Sampler) : State :=
    let t := t.setQuad q ((t.quad q).setRun m)
    (t.feStore die m.vdev m.base (dwordBytes (m.header.take 1))).1.markSampler q s.nextId
  match (s.quad q).runOf start with
  | none => s
  | some m =>
    if m.fill = m.cap then put s { m with drop := m.drop + 1 }
    else
      match s.feStore die m.vdev (m.base + BitVec.ofNat 64 (64 + 32 * m.fill)) (dwordBytes ds) with
      | (s, .ok _) => put s { m with fill := m.fill + 1 }
      | (s, .error _) => put s { m with drop := m.drop + 1 }

/-- Write a memory record (R420), of the run that took it, which may have been stopped since (R426); its four queue counts are
timings that the spec does not give: free values. -/
def State.writeSample (s : State) (q slot : Nat) (x : MemSample) : State :=
  let f := s.free
  f.1.sampleRecord q x.run
    [BitVec.ofNat 64 (2 ^ 60 + field x.pc 56 2),
     BitVec.ofNat 64 (x.act.toNat * 2 ^ 32 + x.last * 2 ^ 27 + x.sect * 2 ^ 16 + x.lines * 2 ^ 8 + (min x.rpl 15) * 16 + slot),
     f.2, BitVec.ofNat 64 x.clk]

/-- A MEM or ATOMIC instruction that no lane performs is counted, and its record written at once (R420). -/
def State.sampleNow (s : State) (act : Mask) (sect lines : Nat) : State :=
  match s.memSample act 0 sect lines with
  | (s, some x) => s.writeSample s.iss.quad s.iss.slot x
  | (s, none) => s

/-- Issue a MEM or ATOMIC instruction: one that traps at its operand checks has been issued, and is counted (R420). -/
def State.memRun (s : State) (sh : Shape) (body : State) : Res :=
  match sh.check s.iw s.iss.mask with
  | some e => .next ((s.sampleNow (s.iw.guarded s.iss.mask sh.guard) 0 0).take e)
  | none => s.guardedRun sh body

end Sys2Proof.Machine
end

