-- ==== Sys2Proof/Machine/Mem.lean ====
section
/-! DEFINITION. The MEM family and `FENCE` (spec/08 R183 to R194, R199, R200), and the events that end loads and stores:
`LOAD_RESULT` and `STORE_PERFORMED`. -/

namespace Sys2Proof.Machine

/-! ### Widths (R184) -/

def ldBytes : MemSz → Nat
  | .n8 | .i8 => 1
  | .n16 | .i16 => 2
  | .w32 => 4
  | .w64 => 8

def stBytes : StSz → Nat
  | .b8 => 1
  | .b16 => 2
  | .w32 => 4
  | .w64 => 8

/-- The value a load writes (R184). -/
def ldExt (sz : MemSz) (v : Nat) : Dword :=
  match sz with
  | .i8 => zx ((BitVec.ofNat 8 v).signExtend 32)
  | .i16 => zx ((BitVec.ofNat 16 v).signExtend 32)
  | _ => BitVec.ofNat 64 v

def ldWide (sz : MemSz) : Bool := sz == .w64
def ldRegs (sz : MemSz) : Nat := if ldWide sz then 2 else 1
def stTy (sz : StSz) : Ty := if sz == .w64 then .i64 else .i32
def ordRel : Ord → Bool
  | .plain => false
  | .sync _ => true

/-- Register writes of a lane's load, unless they are suppressed (R52). -/
def loadWrites (d : Dst) (wide : Bool) (l : Nat) (v : Dword) : List RegW :=
  match d with
  | .reg r false => regWrites l r wide v
  | _ => []

/-! ### Reading for a set -/

/-- What the lanes of a load have read. -/
structure Gathered where
  s : State
  writes : List RegW
  behind : List Nat
  swaths : List (Bool × Nat)
  sects : List Nat
  kill : Byte
  killed : Mask
  remote : Mask
  /-- Lanes whose atomic is held: their threads wait for its result (R389). -/
  waits : Mask

def Gathered.start (s : State) : Gathered :=
  { s := s, writes := [], behind := [], swaths := [], sects := [], kill := 0, killed := 0, remote := 0, waits := 0 }

def placeSect : TRes → Nat
  | .ok k _ => k / 32
  | _ => 0

/-- One more lane. A read that ends in a kill holds its destination until it is answered (R354): the zero named for it
is never written. -/
def Gathered.lane (g : Gathered) (vdev n : Nat) (fin : Nat → Nat → List RegW) (l a : Nat) (p : TRes) : Gathered :=
  let r := g.s.laneRead vdev a n p
  match r.val with
  | .ok v =>
    { g with s := r.s, writes := g.writes ++ fin l v,
             swaths := g.swaths ++ r.swath.toList,
             sects := if r.swath.isSome then insertNat (placeSect p) g.sects else g.sects }
  | .error c =>
    if c = cRemote then { g with s := r.s, remote := g.remote ||| laneBit l }
    else { g with s := r.s, writes := g.writes ++ fin l 0, kill := if g.kill = 0 then c else g.kill,
                  killed := g.killed ||| laneBit l }

/-- An exception of lanes, if there are any. -/
def excIf (c : Byte) (m : Mask) : List Exc := if m = 0 then [] else [Exc.of c m]

/-- Go on past a memory instruction: the lanes that did not stop advance, unless the set stops whole (R246). -/
def State.pastBut (s : State) (stop : Mask) : State :=
  if s.iw.wide && stop != 0 then s else s.setIw (s.iw.advanceIn s.iss (s.iss.mask &&& ~~~ stop))

/-- The sample of an instruction that leaves nothing in flight is written at once (R420). -/
def State.writeTaken (s : State) : Option MemSample → State
  | some x => s.writeSample s.iss.quad s.iss.slot x
  | none => s

/-- A load through a record for the lanes of `m`, of the guard-true lanes `act` (R181, R182, R186, R215). It waits behind its threads'
own held stores to the bytes that it reads (R187, R389), so that an acquire load is performed before what follows it (R194). -/
def State.deviceLoad (s : State) (act m : Mask) (r : BufRec) (idx : Nat → Nat) (size : Nat) (d : Dst) (n : Nat)
    (fin : Nat → Nat → List RegW) : State :=
  let vdev := s.iw.vdev
  let die := dieOfQuad s.iss.quad
  if m = 0 then (s.sampleNow act 0 0).pastBut 0
  else if r.bad false then (s.sampleNow act 0 0).take (Exc.of 0x0F m)
  else
    let as := (laneList m).map (fun l => (l, r.addr (idx l) size))
    match failsOf as with
    | e :: es => (s.sampleNow act 0 0).takeAll (e :: es)
    | [] =>
      let c := s.contract vdev
      let locs := locsOf as
      let hits := locs.filterMap (fun x => (c.watchHit false x.2 size).map (fun b => (x.1, b)))
      let hit := maskOfLanes (hits.map (·.1))
      let live := locs.filter (fun x => !(hasLane hit x.1))
      let t := s.translateLines die vdev false (linesOf live)
      if s.behindHeld false m size (placesOf t.2 live) then s.waits 0
      else
        let pf := pageExcs t.2 live
        let kx := killExcs t.2 live
        let bad := (pf ++ kx).foldl (fun b e => b ||| e.mask) 0
        let good := if s.iw.wide && (hit ||| bad) != 0 then [] else live.filter (fun x => !(hasLane bad x.1))
        let g := good.foldl (fun g x => g.lane vdev size fin x.1 x.2 (placeOf t.2 x.2)) (Gathered.start t.1)
        let zero := as.filterMap (fun x => if x.2 == .clamp then some x.1 else none)
        let ws := g.writes ++ (zero.map (fun l => fin l 0)).flatten
        let stop := hit ||| bad ||| g.remote
        let fl := if s.iw.wide && stop != 0 then 0 else m &&& ~~~ stop
        let sm := g.s.memSample act fl (sectsOf locs).length (linesOf locs).length
        let f := { sm.1.flightOf .load fl 0 false ws with
          kill := g.kill, killed := g.killed, swaths := g.swaths, sects := g.sects, sample := sm.2 }
        let s := if fl = 0 then sm.1.writeTaken sm.2 else sm.1.launchFlight f
        (s.pastBut stop).takeMem (watchExc hits ++ excIf cRemote g.remote ++ pf ++ kx) d n

/-- `LD` (R186). -/
def execLd (h : Hdr) (sz : MemSz) (_o : Ord) (d : Dst) (r : BitVec 4) (b : Opd) (s : State) : Res :=
  let w := s.iw
  s.memRun
    { guard := h.guard, srcs := [(.uniform (r.setWidth 6 * 4), 4), (b, 1)], dsts := d.regs (ldRegs sz), strand := false,
      seals := false }
    (s.deviceLoad (w.guarded s.iss.mask h.guard) (w.guarded s.iss.mask h.guard) (w.bufRec r)
      (fun l => (lo32 (b.val w s.iss h.lit l .i32)).toNat) (ldBytes sz) d (ldRegs sz)
      (fun l v => loadWrites d (ldWide sz) l (ldExt sz v)))

/-- `LDW`: once per issue, for the lowest thread of the set when its guard is true (R51, R189); so also with the destination `_`
(assumption 49). -/
def execLdw (h : Hdr) (wd : Width) (_o : Ord) (d : Dst) (r : BitVec 4) (b : Opd) (s : State) : Res :=
  let w := s.iw
  let n : Nat := match wd with
    | .w32 => 1
    | .w64 => 2
  let low := lowest s.iss.mask
  let m : Mask := if hasLane (w.guarded s.iss.mask h.guard) low then laneBit low else 0
  s.memRun
    { guard := h.guard, srcs := [(.uniform (r.setWidth 6 * 4), 4), (b, 1)], dsts := d.regs n, strand := false,
      seals := false }
    (s.deviceLoad (w.guarded s.iss.mask h.guard) m (w.bufRec r) (fun l => (lo32 (b.val w s.iss h.lit l .i32)).toNat) (4 * n) d n
      (fun l v => loadWrites d (n == 2) l (BitVec.ofNat 64 v)))

/-! ### Storing for a set -/

/-- What the lanes of a store have done. -/
structure Stored where
  s : State
  held : List Nat
  done : List (Nat × Nat)
  /-- Lanes whose store the peer could not perform (R430). -/
  remote : Mask
  kill : Mask

/-- One more lane, ascending, so that the higher lane's byte stands (R188). -/
def Stored.lane (g : Stored) (grp : Nat) (l a : Nat) (data : List Byte) (p : TRes) : Stored :=
  let r := g.s.laneWrite grp l a data p
  { s := r.s, held := g.held ++ r.held, done := (match r.done with
      | some x => x :: g.done
      | none => g.done),
    remote := if r.lost then g.remote ||| laneBit l else g.remote,
    kill := if r.cause = some cUncorrectable then g.kill ||| laneBit l else g.kill }

/-- `ST` (R186, R188). It waits behind its threads' own held stores to the bytes that it writes, a release behind all of them (R187,
R194, R389). -/
def State.deviceStore (s : State) (m : Mask) (r : BufRec) (idx : Nat → Nat) (size : Nat) (rel : Bool)
    (data : Nat → List Byte) : State :=
  let vdev := s.iw.vdev
  let die := dieOfQuad s.iss.quad
  if m = 0 then (s.sampleNow 0 0 0).pastBut 0
  else if r.bad true then (s.sampleNow m 0 0).take (Exc.of 0x0F m)
  else
    let as := (laneList m).map (fun l => (l, r.addr (idx l) size))
    match failsOf as with
    | e :: es => (s.sampleNow m 0 0).takeAll (e :: es)
    | [] =>
      let c := s.contract vdev
      let locs := locsOf as
      let hits := locs.filterMap (fun x => (c.watchHit true x.2 size).map (fun b => (x.1, b)))
      let hit := maskOfLanes (hits.map (·.1))
      let live := locs.filter (fun x => !(hasLane hit x.1))
      let t := s.translateLines die vdev true (linesOf live)
      if s.behindHeld rel m size (placesOf t.2 live) then s.waits 0
      else
        let pf := pageExcs t.2 live
        let kx := killExcs t.2 live
        let bad := (pf ++ kx).foldl (fun b e => b ||| e.mask) 0
        let good := if s.iw.wide && (hit ||| bad) != 0 then [] else live.filter (fun x => !(hasLane bad x.1))
        let g := good.foldl (fun (g : Stored) x => g.lane t.1.nextId x.1 x.2 (data x.1) (placeOf t.2 x.2))
          { s := t.1, held := [], done := [], remote := 0, kill := 0 }
        let stop := hit ||| bad ||| g.kill
        let fl := if s.iw.wide && stop != 0 then 0 else m &&& ~~~ stop
        let sm := (g.s.coverSectors g.done).memSample m fl (sectsOf locs).length (linesOf locs).length
        let f := { sm.1.flightOf .store fl 0 false [] with behind := g.held, sample := sm.2 }
        let s := if fl = 0 then sm.1.writeTaken sm.2 else sm.1.launchFlight f
        ((s.pastBut stop).takeMem (watchExc hits ++ pf ++ kx ++ excIf cUncorrectable g.kill) .none 0).dropRemote s.iw g.remote

/-- `ST` (R186). -/
def execSt (h : Hdr) (sz : StSz) (o : Ord) (r : BitVec 4) (b c : Opd) (s : State) : Res :=
  let w := s.iw
  s.memRun
    { guard := h.guard, srcs := [(.uniform (r.setWidth 6 * 4), 4), (b, 1), (c, (stTy sz).regs)], dsts := [],
      strand := false, seals := false }
    (s.deviceStore (w.guarded s.iss.mask h.guard) (w.bufRec r)
      (fun l => (lo32 (b.val w s.iss h.lit l .i32)).toNat) (stBytes sz) (ordRel o)
      (fun l => leBytes (stBytes sz) (c.val w s.iss h.lit l (stTy sz)).toNat))

/-! ### Scratchpad accesses (R190 to R192) -/

/-- Read the lanes' scratchpad places; a word that cannot be repaired is a cause (R357). No scratchpad write is ever held (R389). -/
def Gathered.scrLane (g : Gathered) (n : Nat) (fin : Nat → Nat → List RegW) (l k : Nat) : Gathered :=
  match g.s.meetRead k n with
  | .ok s => { g with s := s, writes := g.writes ++ fin l (leNat (s.bytes k n)) }
  | .error c => { g with writes := g.writes ++ fin l 0, kill := if g.kill = 0 then c else g.kill,
                         killed := g.killed ||| laneBit l }

/-- Lines of 16 bytes that a scratchpad access touches. -/
def scrLines (locs : List (Nat × Nat)) : Nat := (locs.foldl (fun ls x => insertNat (x.2 / 16) ls) []).length

/-- Lanes that a scratchpad access performs: all that pass, unless a stop of any lane stops the whole set (R207, R246). -/
def State.scrGood (s : State) (as : List (Nat × LaneAddr)) : List (Nat × Nat) :=
  if s.iw.wide && !(failsOf as).isEmpty then [] else locsOf as

/-- A scratchpad load: its data is written `lat` clocks after its last bank pass, or at the earliest `lat` clocks after
issue for the tract's form (R192). Lanes that pass are performed (R207). -/
def State.scrLoad (s : State) (m : Mask) (addr : Nat → LaneAddr) (size lat : Nat) (own : Bool)
    (fin : Nat → Nat → List RegW) : State :=
  if m = 0 then (s.sampleNow 0 0 0).pastBut 0
  else
    let as := (laneList m).map (fun l => (l, addr l))
    let es := failsOf as
    let stop := es.foldl (fun b e => b ||| e.mask) 0
    let locs := s.scrGood as
    let g := locs.foldl (fun g x => g.scrLane size fin x.1 x.2) (Gathered.start s)
    let p := g.s.passes locs
    let b := if own && !locs.isEmpty then g.s.bankEnd p else (g.s, g.s.iss.clk)
    let fl := maskOfLanes (locs.map (·.1))
    let sm := b.1.memSample m fl (scrLines locs) p
    let f := { sm.1.flightOf .load fl (b.2 + lat) own g.writes with kill := g.kill, killed := g.killed, sample := sm.2 }
    let s := if fl = 0 then sm.1.writeTaken sm.2 else sm.1.launchFlight f
    (s.pastBut stop).takeAll es

/-- One lane's scratchpad store, ascending (R188): the state, and the lanes whose word cannot be repaired. -/
def scrWrite (g : State × Mask) (lane k : Nat) (data : List Byte) : State × Mask :=
  match g.1.store k data with
  | .error _ => (g.1, g.2 ||| laneBit lane)
  | .ok s => (s, g.2)

/-- A scratchpad store (R188, R192). Lanes that pass are performed (R207); its sample is written when its last pass has
run (R420). A release waits at its instruction behind its threads' held writes (R194, R389). -/
def State.scrStore (s : State) (m : Mask) (addr : Nat → LaneAddr) (own rel : Bool) (data : Nat → List Byte) : State :=
  if m = 0 then (s.sampleNow 0 0 0).pastBut 0
  else if rel && s.anyHeld s.iss.gw m then s.waits 0
  else
    let as := (laneList m).map (fun l => (l, addr l))
    let es := failsOf as
    let stop := es.foldl (fun b e => b ||| e.mask) 0
    let locs := s.scrGood as
    let r := locs.foldl (fun g x => scrWrite g x.1 x.2 (data x.1)) (s, 0)
    let p := r.1.passes locs
    let b := if own && !locs.isEmpty then r.1.bankEnd p else (r.1, r.1.iss.clk)
    let fl := maskOfLanes (locs.map (·.1))
    let sm := b.1.memSample m fl (scrLines locs) p
    let s := if fl = 0 || sm.2.isNone then sm.1.writeTaken sm.2
      else sm.1.launchFlight { sm.1.flightOf .store fl b.2 own [] with sample := sm.2 }
    (s.pastBut (stop ||| r.2)).takeAll (es ++ excIf cUncorrectable r.2)

/-- Shape of a scratchpad access. -/
def scrShape (h : Hdr) (srcs : List (Opd × Nat)) (dsts : List (DReg × Nat)) : Shape :=
  { guard := h.guard, srcs := srcs, dsts := dsts, strand := false, seals := false }

/-- `LDS` (R190). -/
def execLds (h : Hdr) (sz : MemSz) (_o : Ord) (d : Dst) (a b : Opd) (s : State) : Res :=
  let w := s.iw
  s.memRun (scrShape h [(a, 1), (b, 1)] (d.regs (ldRegs sz)))
    (s.scrLoad (w.guarded s.iss.mask h.guard)
      (fun l => s.ldsAddr (a.val w s.iss h.lit l .i32) (b.val w s.iss h.lit l .i32) (ldBytes sz)) (ldBytes sz) 6 true
      (fun l v => loadWrites d (ldWide sz) l (ldExt sz v)))

/-- `STS` (R190). -/
def execSts (h : Hdr) (sz : StSz) (o : Ord) (a b c : Opd) (s : State) : Res :=
  let w := s.iw
  s.memRun (scrShape h [(a, 1), (b, 1), (c, (stTy sz).regs)] [])
    (s.scrStore (w.guarded s.iss.mask h.guard)
      (fun l => s.ldsAddr (a.val w s.iss h.lit l .i32) (b.val w s.iss h.lit l .i32) (stBytes sz)) true (ordRel o)
      (fun l => leBytes (stBytes sz) (c.val w s.iss h.lit l (stTy sz)).toNat))

/-- `LDX` (R191). -/
def execLdx (h : Hdr) (sz : MemSz) (_o : Ord) (core : BitVec 2) (d : Dst) (a b : Opd) (s : State) : Res :=
  let w := s.iw
  s.memRun (scrShape h [(a, 1), (b, 1)] (d.regs (ldRegs sz)))
    (if (laneList (w.guarded s.iss.mask h.guard)).any (fun l =>
        s.ldxWaits core (scrOff (a.val w s.iss h.lit l .i32) (b.val w s.iss h.lit l .i32))) then s.waits 0
     else s.scrLoad (w.guarded s.iss.mask h.guard)
      (fun l => s.ldxAddr core (a.val w s.iss h.lit l .i32) (b.val w s.iss h.lit l .i32) (ldBytes sz)) (ldBytes sz) 20
      false (fun l v => loadWrites d (ldWide sz) l (ldExt sz v)))

/-- `STX` (R191). -/
def execStx (h : Hdr) (sz : StSz) (o : Ord) (core : BitVec 2) (a b c : Opd) (s : State) : Res :=
  let w := s.iw
  s.memRun (scrShape h [(a, 1), (b, 1), (c, (stTy sz).regs)] [])
    (if (laneList (w.guarded s.iss.mask h.guard)).any (fun l =>
        s.ldxWaits core (scrOff (a.val w s.iss h.lit l .i32) (b.val w s.iss h.lit l .i32))) then s.waits 0
     else s.scrStore (w.guarded s.iss.mask h.guard)
      (fun l => s.ldxAddr core (a.val w s.iss h.lit l .i32) (b.val w s.iss h.lit l .i32) (stBytes sz)) false (ordRel o)
      (fun l => leBytes (stBytes sz) (c.val w s.iss h.lit l (stTy sz)).toNat))

/-! ### FENCE (R199, R200) -/

/-- Accesses of the threads of `m` that a fence of a kind must still wait for: stores and held writes for `.rel`, loads
and atomics on their way for `.acq`. -/
def State.fencePending (s : State) (k : FenceKind) (gw : Nat) (m : Mask) : Bool :=
  let mine (f : Flight) : Bool := f.gw == gw && (f.mask &&& m) != 0
  let writes : Bool := s.flights.any (fun f => mine f && f.kind == .store) ||
    (s.heldBy gw).any (fun h => hasLane m h.lane)
  let reads : Bool := s.flights.any (fun f => mine f && (f.kind == .load || f.kind == .atomic))
  match k with
  | .acq => reads
  | .rel | .ar => reads || writes

/-- `FENCE`: it does not issue while an access it orders is unperformed; then it has no further effect in a model whose
accesses are performed in one order (R200). -/
def execFence (h : Hdr) (k : FenceKind) (_sc : Scope) (s : State) : Res :=
  s.guardedRun (Shape.plain h.guard)
    (if s.fencePending k s.iss.gw (s.iw.guarded s.iss.mask h.guard) then s.waits 0 else s.setIw (s.iw.advance s.iss))

/-! ### LOAD_RESULT and STORE_PERFORMED -/

/-- What an operation waits behind has gone: held writes, a swath in motion, for `PROF.stop` operations whose samples are to be
written (R389, R399, R426). -/
def State.unblocked (s : State) (f : Flight) : Bool :=
  f.behind.all (fun i => s.held.all (fun h => h.id != i) && s.flights.all (fun g => g.id != i)) &&
  f.swaths.all (fun x => !((s.tier x.1).inFlight.contains x.2))

/-- Threads stalled at an operation go on. -/
def Warp.unstall (w : Warp) (id : Nat) : Warp :=
  w.mapThreads w.live (fun _ t => if t.stat = .stalled id then { t with stat := .ready } else t)

/-- Held writes of a thread of a warp with numbers below n. -/
def State.heldBelow (s : State) (w : Warp) (l n : Nat) : Bool := s.held.any (fun h => h.isOf w l && decide (h.id < n))

/-- Accesses of a thread with numbers below n that are not performed yet. -/
def State.accessesBelow (s : State) (gw l n : Nat) : Bool :=
  s.flights.any (fun f => f.gw == gw && hasLane f.mask l && decide (f.id < n) &&
    (f.kind == .store || f.kind == .load || f.kind == .atomic)) ||
  s.heldBelow (s.warp gw) l n

/-- Marks of `TRIG` whose earlier accesses have all been performed take effect (R305). -/
def State.settleTrigs (s : State) (gw : Nat) : State :=
  let w := s.warp gw
  let due (l : Nat) (t : Thread) : Bool :=
    match t.trigAt with
    | some n => !t.trig && !(s.accessesBelow gw l n)
    | none => false
  if (laneList w.live).any (fun l => due l (w.thread l)) then
    let s := s.setWarp gw (w.mapThreads w.live (fun l t => if due l t then { t with trig := true } else t))
    s.checkTrigger w.vdev w.lseq w.pseq
  else s

/-- What waits behind an operation waits behind the held writes from number `n` on that it has left (R421). -/
def State.passBehind (s : State) (id n : Nat) : State :=
  let new := (s.held.filter (fun h => decide (n ≤ h.id))).map (·.id)
  { s with flights := s.flights.map (fun g =>
      if g.behind.contains id then { g with behind := g.behind.filter (fun i => i != id) ++ new } else g) }

/-- An operation ends: its registers are written, it is dropped, the threads it stalled go on, its sample is written. -/
def State.land (s : State) (f : Flight) : State :=
  let w := s.warp f.gw
  let s := (s.setWarp f.gw ((f.writes.foldl Warp.applyW w).unstall f.id)).dropFlight f.id
  let s := s.landShadow f
  let s := s.settleTrigs f.gw
  match f.sample with
  | some x => (s.writeSample f.iss.quad f.iss.slot x).passBehind f.id s.nextId
  | none => s

/-- A read that cannot be delivered: its record, and the kill (R354). -/
def State.killFlight (s : State) (f : Flight) (c : Byte) : State :=
  let w := s.warp f.gw
  let s := s.dropFlight f.id
  let m := if f.killed = 0 then f.mask else f.killed
  let s := (s.record { Rec.of c f.gw m w.vdev w.lseq f.iss.pc f.spc with edit := w.edit } false).1
  s.killParcel f.gw w.vdev w.lseq w.pseq c

/-- `LOAD_RESULT`: data returns and is written (R186), or the read ends in a kill (R354, R400). -/
def dueLoadResult (id : Nat) (s : State) : Option State :=
  match s.flight? id .load with
  | none => none
  | some f =>
    if !(s.ripe f && s.unblocked f) then none
    else if f.kill != 0 then some (s.killFlight f f.kill)
    else if f.sects.any (fun x => s.lost.contains x) then some (s.killFlight f cReplatLost)
    else some (s.land f)

/-- `LOAD_RESULT`: as `dueLoadResult` has it; while the event is not due it does not take place, and nothing changes (assumption 14). -/
def execLoadResult (id : Nat) (s : State) : Res :=
  State.after s (dueLoadResult id s)

/-- `STORE_PERFORMED`: the writes of a store are performed (R200). -/
def dueStorePerformed (id : Nat) (s : State) : Option State :=
  match s.flight? id .store with
  | none => none
  | some f => if s.ripe f && s.unblocked f then some (s.land f) else none

/-- `STORE_PERFORMED`: as `dueStorePerformed` has it; while the event is not due it does not take place, and nothing changes (assumption 14). -/
def execStorePerformed (id : Nat) (s : State) : Res :=
  State.after s (dueStorePerformed id s)

end Sys2Proof.Machine
end

