-- ==== Sys2Proof/Machine/Branch.lean ====
section
/-! DEFINITION. The BRANCH family (spec/06 R122 to R135) but for `EXIT` (Machine/Exit.lean), and the `STRAND` header (R36, R143, R144). -/

namespace Sys2Proof.Machine

/-- Shape of an instruction that seals its strand (R39). -/
def Shape.sealing (g : Guard) (srcs : List (Opd × Nat)) : Shape :=
  { guard := g, srcs := srcs, dsts := [], strand := false, seals := true }

def Shape.reading (g : Guard) (srcs : List (Opd × Nat)) : Shape :=
  { guard := g, srcs := srcs, dsts := [], strand := false, seals := false }

/-- Target of `BRA` and `CALL` (R123). -/
def braTarget (i : Issue) (off : Dword) : Dword := canon (i.pc + 4 * off)

/-- A bad indirect target (R124). -/
def badTarget (t : Dword) : Bool := t.toNat % 4 != 0 || !(canonical t)

/-! ### BRA and BRX -/

/-- Where a lane of the set goes. -/
def branchPc (i : Issue) (g : Mask) (dst : Nat → Dword) (l : Nat) : Dword := if hasLane g l then dst l else i.next

/-- The set would stand at more than one PC. -/
def splits (i : Issue) (g : Mask) (dst : Nat → Dword) : Bool :=
  (laneList i.mask).any (fun l => branchPc i g dst l != branchPc i g dst (lowest i.mask))

/-- Each lane goes to its own address (R126); a warp-wide strand may not split (R246). -/
def State.branchTo (s : State) (g : Mask) (dst : Nat → Dword) : State :=
  if s.iw.wide && splits s.iss g dst then s.take (Exc.of 0x08 s.iss.mask)
  else s.setIw (s.iw.mapThreads s.iss.mask (fun l t => t.goto (branchPc s.iss g dst l)))

/-- `BRA` (R123, R126). -/
def execBra (h : Hdr) (off : Word) (s : State) : Res :=
  s.guardedRun (Shape.plain h.guard)
    (s.branchTo (s.iw.guarded s.iss.mask h.guard) (fun _ => braTarget s.iss (sx off)))

/-- Lanes of `g` whose indirect target is bad. -/
def badLanes (g : Mask) (dst : Nat → Dword) : Mask := maskOf (fun l => hasLane g l && badTarget (dst l))

/-- `BRX` (R124, R126). -/
def execBrx (h : Hdr) (a : Opd) (s : State) : Res :=
  let w := s.iw
  let g := w.guarded s.iss.mask h.guard
  let dst (l : Nat) : Dword := a.val w s.iss h.lit l .i64
  s.guardedRun (Shape.reading h.guard [(a, 2)])
    (if badLanes g dst != 0 then s.take (Exc.of 0x0E (badLanes g dst)) else s.branchTo g dst)

/-! ### The return stack (R129 to R135) -/

/-- An entry as an address, and back (R129). -/
def entryPc (e : BitVec 55) : Dword := canon (e.setWidth 64 <<< 2)
def pcEntry (a : Dword) : BitVec 55 := a.extractLsb' 2 55

/-- Spill slot i of the thread in a lane (R132). -/
def Warp.spillSlot (w : Warp) (l i : Nat) : Dword :=
  (w.cspbase &&& ~~~ (15 : Dword)) + BitVec.ofNat 64 (l * w.stride.toNat + 8 * i)

/-- Push and pop of the on-chip entries; entry 1 is the oldest. -/
def Thread.entry (t : Thread) (k : Nat) : BitVec 55 :=
  match k with
  | 1 => t.e1
  | 2 => t.e2
  | 3 => t.e3
  | _ => t.e4
def Thread.setEntry (t : Thread) (k : Nat) (v : BitVec 55) : Thread :=
  match k with
  | 1 => { t with e1 := v }
  | 2 => { t with e2 := v }
  | 3 => { t with e3 := v }
  | _ => { t with e4 := v }
def Thread.push (t : Thread) (ret : Dword) : Thread :=
  { t.setEntry (t.live + 1) (pcEntry ret) with live := t.live + 1 }
/-- Entries 1 and 2 leave for the spill area (R133). -/
def Thread.spilled (t : Thread) : Thread := { t with e1 := t.e3, e2 := t.e4, live := 2, depth := t.depth + 2 }

/-- What the lanes of a call or return have done. -/
structure Called where
  s : State
  done : Mask
  lack : Mask
  spill : Mask
  pages : List Dword
  bad : Mask
  remote : Mask
  kill : Byte
  killed : Mask
  /-- Lanes whose access a watch slot covers, each with the lowest byte (R415); lanes whose spill store the peer could not perform
  (R430). -/
  hits : List (Nat × Nat)
  lost : Mask
  /-- Swaths in motion that refills wait behind (R399). -/
  swaths : List (Bool × Nat)
  /-- Lanes that wait for a refill, and where each goes on. -/
  refill : Mask
  pcs : NMap Dword

def Called.start (s : State) : Called :=
  { s := s, done := 0, lack := 0, spill := 0, pages := [], bad := 0, remote := 0, kill := 0, killed := 0, hits := [],
    lost := 0, swaths := [], refill := 0, pcs := [] }

/-- A lane's access to a spill slot failed. -/
def Called.fail (c : Called) (l : Nat) (va : Dword) (x : Byte) : Called :=
  if x = cRemote then { c with remote := c.remote ||| laneBit l }
  else if x = cReplatLost ∨ x = cUncorrectable then
    { c with kill := if c.kill = 0 then x else c.kill, killed := c.killed ||| laneBit l }
  else { c with spill := c.spill ||| laneBit l, pages := c.pages ++ [pageOf va.toNat] }

/-- Store one spilled entry (R132): a plain store of the thread. -/
def State.spillOne (s : State) (l : Nat) (va v : Dword) : LaneWrite :=
  let t := s.translate (dieOfQuad s.iss.quad) s.iw.vdev va true false
  t.1.laneWrite t.1.nextId l va.toNat (leBytes 8 v.toNat) t.2

/-- The lowest byte that a watch covers of the two spill slots from `va` on (R132, R415). -/
def State.spillHit (s : State) (write : Bool) (va : Dword) : Option Nat := (s.contract s.iw.vdev).watchHit write va.toNat 16

/-- The slots that a call spills to and a return refills from, for the lanes that do (R133, R134). -/
def Warp.spills (w : Warp) (call : Bool) (g : Mask) : List (Nat × Dword) :=
  (laneList g).filterMap (fun l =>
    let t := w.thread l
    if call then (if t.live = 4 ∧ ¬ (w.stride.toNat / 8 < t.depth.toNat + 2) then some (l, w.spillSlot l t.depth.toNat) else none)
    else (if t.live = 1 ∧ t.depth ≠ 0 then some (l, w.spillSlot l (t.depth.toNat - 2)) else none))

/-- A spill or refill waits at its instruction behind the thread's own held stores to the slots (R132, R187, R389). -/
def State.spillWaits (s : State) (call : Bool) (g : Mask) : Bool :=
  let at' (va : Dword) : TRes := (s.translate (dieOfQuad s.iss.quad) s.iw.vdev va call false).2
  s.behindHeld false g 8 (((s.iw.spills call g).map (fun x =>
    [(x.1, x.2.toNat, at' x.2), (x.1, x.2.toNat + 8, at' (x.2 + 8))])).flatten)

/-- One lane's call (R133). -/
def Called.call (c : Called) (l : Nat) (ret target : Dword) : Called :=
  let gw := c.s.iss.gw
  let w := c.s.iw
  let t := w.thread l
  let fin (c : Called) (t : Thread) : Called :=
    { c with s := c.s.setWarp gw ((c.s.warp gw).setThread l (t.push ret)), done := c.done ||| laneBit l,
             pcs := NMap.put c.pcs l target }
  if t.live = 4 then
    if w.stride.toNat / 8 < t.depth.toNat + 2 then { c with lack := c.lack ||| laneBit l }
    else
      let a1 := w.spillSlot l t.depth.toNat
      match c.s.spillHit true a1 with
      | some b => { c with hits := c.hits ++ [(l, b)] }
      | none =>
        let r1 := c.s.spillOne l a1 (entryPc t.e1)
        match r1.cause with
        | some x => ({ c with s := r1.s }).fail l a1 x
        | none =>
          let a2 := w.spillSlot l (t.depth.toNat + 1)
          let r2 := r1.s.spillOne l a2 (entryPc t.e2)
          match r2.cause with
          | some x => ({ c with s := r2.s }).fail l a2 x
          | none => fin { c with s := r2.s, lost := if r1.lost || r2.lost then c.lost ||| laneBit l else c.lost } t.spilled
  else fin c t

/-- Load one slot of the spill area (R134). -/
def State.refillOne (s : State) (va : Dword) : LaneRead :=
  let t := s.translate (dieOfQuad s.iss.quad) s.iw.vdev va false false
  t.1.laneRead s.iw.vdev va.toNat 8 t.2

/-- One lane's return (R134). -/
def Called.ret (c : Called) (l : Nat) : Called :=
  let gw := c.s.iss.gw
  let w := c.s.iw
  let t := w.thread l
  let target := entryPc (t.entry t.live)
  let fin (c : Called) (t : Thread) : Called :=
    { c with s := c.s.setWarp gw ((c.s.warp gw).setThread l t), done := c.done ||| laneBit l,
             pcs := NMap.put c.pcs l target }
  if t.live = 0 then { c with lack := c.lack ||| laneBit l }
  else if t.live = 1 ∧ t.depth ≠ 0 then
    let a1 := w.spillSlot l (t.depth.toNat - 2)
    match c.s.spillHit false a1 with
    | some b => { c with hits := c.hits ++ [(l, b)] }
    | none =>
      let r1 := c.s.refillOne a1
      match r1.val with
      | .error x => ({ c with s := r1.s }).fail l a1 x
      | .ok v1 =>
        let a2 := w.spillSlot l (t.depth.toNat - 1)
        let r2 := r1.s.refillOne a2
        match r2.val with
        | .error x => ({ c with s := r2.s }).fail l a2 x
        | .ok v2 =>
          let s1 := BitVec.ofNat 64 v1
          let s2 := BitVec.ofNat 64 v2
          if badTarget s1 || badTarget s2 then { c with s := r2.s, bad := c.bad ||| laneBit l }
          else
            fin { c with s := r2.s, refill := c.refill ||| laneBit l, swaths := c.swaths ++ r1.swath.toList ++ r2.swath.toList }
              { t with e1 := pcEntry s1, e2 := pcEntry s2, depth := t.depth - 2, live := 2 }
  else fin c { t with live := t.live - 1 }

/-- The exceptions of a call or return (R133 to R135, R157, R415). -/
def Called.excs (c : Called) (code : Byte) : List Exc :=
  excIf code c.lack ++ watchExc c.hits ++
  (if c.spill = 0 then [] else [{ Exc.of 0x28 c.spill with pages := c.pages }]) ++
  excIf 0x0E c.bad ++ excIf cRemote c.remote ++ (if c.killed = 0 then [] else [Exc.of c.kill c.killed])

/-- Seal for the lanes that went through, and take what stopped the others. In a warp-wide strand a stop of any lane stops
the whole set, and nothing of the call stays but its spill stores (R135, R246). -/
def Called.finish (c : Called) (was : Warp) (g : Mask) (code : Byte) : State :=
  let es := c.excs code
  let iss := c.s.iss
  if c.s.iw.wide && !es.isEmpty then (c.s.setIw (c.s.iw.mapThreads iss.mask (fun l _ => was.thread l))).takeAll es
  else
    let others := iss.mask &&& ~~~ g
    let s := c.s.sealIn (c.done ||| others) (fun l => NMap.get iss.next c.pcs l)
    let s := if c.refill = 0 then s
      else
        let s := s.setIw (s.iw.mapThreads c.refill (fun _ t => { t with stat := .stalled s.nextId }))
        s.launchFlight { s.flightOf .load c.refill 0 false [] with swaths := c.swaths }
    (s.takeAll es).dropRemote was c.lost

/-- A call of the lanes of `g` (R133). -/
def State.callTo (s : State) (g : Mask) (dst : Nat → Dword) : State :=
  if s.spillWaits true g then s.waits 0
  else ((laneList g).foldl (fun (c : Called) l => c.call l s.iss.next (dst l)) (Called.start s)).finish s.iw g 0x28

/-- `CALL` (R123, R133). -/
def execCall (h : Hdr) (off : Word) (s : State) : Res :=
  s.guardedRun (Shape.sealing h.guard [])
    (s.callTo (s.iw.guarded s.iss.mask h.guard) (fun _ => braTarget s.iss (sx off)))

/-- `CALLX` (R124, R133). -/
def execCallx (h : Hdr) (a : Opd) (s : State) : Res :=
  let w := s.iw
  let g := w.guarded s.iss.mask h.guard
  let dst (l : Nat) : Dword := a.val w s.iss h.lit l .i64
  s.guardedRun (Shape.sealing h.guard [(a, 2)])
    (if badLanes g dst != 0 then s.take (Exc.of 0x0E (badLanes g dst)) else s.callTo g dst)

/-- `RET` (R134). -/
def execRet (h : Hdr) (s : State) : Res :=
  let g := s.iw.guarded s.iss.mask h.guard
  s.guardedRun (Shape.sealing h.guard [])
    (if s.spillWaits false g then s.waits 0
     else ((laneList g).foldl (fun (c : Called) l => c.ret l) (Called.start s)).finish s.iw g 0x29)

/-! ### TRAP and BRK (R128) -/

/-- Stop the lanes of `g`; the others go on (R128), unless the set stops whole (R246). -/
def State.stopLanes (s : State) (g : Mask) (e : Exc) : State :=
  if g = 0 then s.setIw (s.iw.advance s.iss) else (s.pastBut g).take e

/-- `TRAP` (R128). -/
def execTrap (h : Hdr) (a : Opd) (s : State) : Res :=
  let w := s.iw
  let g := w.guarded s.iss.mask h.guard
  s.guardedRun (Shape.reading h.guard [(a, 1)])
    (s.stopLanes g { Exc.of 0x20 g with arg := some (lo32 (a.val w s.iss h.lit (lowest g) .i32)) })

/-- Lanes of the set that pass the breakpoint at which they stopped, once (R414). -/
def Warp.passing (w : Warp) (i : Issue) : Mask :=
  maskOf (fun l => hasLane i.mask l && (w.thread l).bpPass == some i.pc)

/-- `BRK` (R128, R414). -/
def execBrk (h : Hdr) (s : State) : Res :=
  let g := s.iw.guarded s.iss.mask h.guard &&& ~~~ s.iw.passing s.iss
  s.guardedRun (Shape.plain h.guard) (s.stopLanes g (Exc.of 0x21 g))

/-! ### STRAND -/

/-- A thread at a header: its restart PC, survivors, and what it has retired (R36, R41, R422). -/
def Thread.header (t : Thread) (pc next : Dword) (win : BitVec 2) (mask : BitVec 64) : Thread :=
  { t with rpc := pc, pc := next, survW := win, survM := mask, needHdr := false, again := false, retired := t.retired + t.since, since := 1,
           stat := .ready }

/-- A survivor lies at or above the hold count (R144). -/
def strandBeyond (w : Warp) (win : BitVec 2) (mask : BitVec 64) : Bool :=
  (List.range 64).any (fun i => mask.getLsbD i && decide (w.hc ≤ 64 * win.toNat + i))

/-- The header's effect on the set (R36, R144, R245). The header of an abandoned warp-wide strand that executes again seals nothing of
it: its footprints stay held (R256). -/
def State.openStrand (s : State) (win : BitVec 2) (mask : BitVec 64) : State :=
  let s := if !s.iw.wide && s.iss.pc == s.iw.footAt then s else s.endWide s.iss.gw s.iss.mask
  let w := s.iw
  s.setIw (((w.mapThreads s.iss.mask (fun _ t => t.header s.iss.pc s.iss.next win mask)).loseLatches s.iss.mask).loseNear
    s.iss.mask)

/-- `STRAND` (R36, R143, R144). -/
def execStrand (win : BitVec 2) (mask : BitVec 64) (s : State) : Res :=
  s.guardedRun { Shape.plain hdrC.guard with strand := true }
    (if strandBeyond s.iw win mask then s.take (Exc.of 0x0D s.iss.mask) else s.openStrand win mask)

end Sys2Proof.Machine
end

