-- ==== Sys2Proof/Machine/Rejoin.lean ====
section
/-! DEFINITION. The REJOIN family (spec/06 R136 to R142): rejoin masks, waits on them, and election. -/

namespace Sys2Proof.Machine

/-- Write a rejoin mask when some lane is guard-true, and evaluate the waits again (R137, R138). -/
def State.writeMask (s : State) (g : Mask) (j : BitVec 4) (f : Mask → Mask) : State :=
  let w := s.iw.advance s.iss
  if g = 0 then s.setIw w else s.setIw (w.setJ j.toNat (f (w.getJ j.toNat))).wake

/-- `JSET` (R137). -/
def execJset (h : Hdr) (j : BitVec 4) (s : State) : Res :=
  let g := s.iw.guarded s.iss.mask h.guard
  s.guardedRun (Shape.plain h.guard) (s.writeMask g j (fun _ => g))

/-- `JADD` (R137). -/
def execJadd (h : Hdr) (j : BitVec 4) (s : State) : Res :=
  let g := s.iw.guarded s.iss.mask h.guard
  s.guardedRun (Shape.plain h.guard) (s.writeMask g j (fun m => m ||| g))

/-- `JCLR` (R137). -/
def execJclr (h : Hdr) (j : BitVec 4) (s : State) : Res :=
  let g := s.iw.guarded s.iss.mask h.guard
  s.guardedRun (Shape.plain h.guard) (s.writeMask g j (fun m => m &&& ~~~ g))

/-- Evaluate the waits of the issuing warp. -/
def State.wakeIw (s : State) : State := s.setIw s.iw.wake

/-- `WAITJ`: each guard-true thread blocks; those whose condition holds are released in the same clock (R139). -/
def execWaitj (h : Hdr) (j : BitVec 4) (s : State) : Res :=
  let g := s.iw.guarded s.iss.mask h.guard
  s.guardedRun { Shape.sealing h.guard [] with blocks := true } (s.sealBlock g (.waitj j.toNat s.iss.words)).wakeIw

/-- `ELECT` (R142). -/
def execElect (h : Hdr) (p : BitVec 3) (s : State) : Res :=
  let w := s.iw
  let g := w.guarded s.iss.mask h.guard
  s.guardedRun (Shape.plain h.guard)
    (s.setIw ((w.advance s.iss).setPredIn p.toNat g (if g = 0 then 0 else laneBit (lowest g))))

/-- `SLEEPJ`: each guard-true thread whose bit is 1 blocks (R140). -/
def execSleepj (h : Hdr) (j : BitVec 4) (s : State) : Res :=
  let w := s.iw
  let g := w.guarded s.iss.mask h.guard
  s.guardedRun { Shape.sealing h.guard [] with blocks := true } (s.sealBlock (g &&& w.getJ j.toNat) (.sleepj j.toNat s.iss.words)).wakeIw

/-- `WAKEJ` (R137): it seals even with no lane guard-true. -/
def execWakej (h : Hdr) (j : BitVec 4) (s : State) : Res :=
  let g := s.iw.guarded s.iss.mask h.guard
  s.guardedRun (Shape.sealing h.guard [])
    (let s := s.sealNext
     if g = 0 then s else s.setIw ((s.iw.setJ j.toNat 0).wake))

end Sys2Proof.Machine
end

