-- ==== Sys2Proof/WellFormed.lean ====
section
/-! DEFINITION. When an instruction as syntax is one that an encoding exists for (spec/02 R23, spec/03 R52 to R58
and the family pages): even pairs for 64-bit operands, the literal only in a 96-bit form, a zero literal word
where nothing uses it, destinations of the level the page allows. Events of the part have no encoding; their
arguments are free. -/

namespace Sys2Proof

/-- Registers of an operand of a width (R23). -/
def Width.regs : Width → Nat
  | .w32 => 1
  | .w64 => 2

/-- An index fit for a pair, or for one register. -/
def evenFor (n i : Nat) : Bool := n == 1 || i % 2 == 0

/-- A source of `n` registers in a form (R23, R54). -/
def Opd.ok (h : Hdr) (n : Nat) : Opd → Bool
  | .hold i => evenFor n i.toNat
  | .near i => evenFor n i.toNat
  | .uniform i => evenFor n i.toNat
  | .lit => h.long
  | _ => true

/-- A source that may not be the literal. -/
def Opd.okNoLit (n : Nat) : Opd → Bool
  | .hold i => evenFor n i.toNat
  | .near i => evenFor n i.toNat
  | .uniform i => evenFor n i.toNat
  | .lit => false
  | _ => true

/-- A destination of `n` registers (R23, R52). -/
def Dst.ok (n : Nat) : Dst → Bool
  | .none => true
  | .reg (.hold i) _ => evenFor n i.toNat
  | .reg (.near i) _ => evenFor n i.toNat
  | .reg (.uniform i) _ => evenFor n i.toNat

/-- A hold or near destination, or `_` (R183, R195). -/
def Dst.okData (n : Nat) : Dst → Bool
  | .reg (.uniform _) _ => false
  | d => d.ok n

/-- A uniform destination, or `_` (R183). -/
def Dst.okUni (n : Nat) : Dst → Bool
  | .none => true
  | .reg (.uniform i) _ => evenFor n i.toNat
  | _ => false

/-- The destination of `LPUSH` (R149). -/
def Dst.okPush (other : Bool) : Dst → Bool
  | .reg (.hold _) _ => true
  | .reg (.near _) _ => !other
  | _ => false

/-- The literal word of a form (R54): zero unless it is a 96-bit form with a source that names it. -/
def Hdr.ok (h : Hdr) (srcs : List Opd) : Bool :=
  h.lit == 0 || (h.long && srcs.contains .lit)

/-- A combine field in canonical form. -/
def RedOp.isFp : RedOp → Bool
  | .fadd | .fmin | .fmax => true
  | _ => false

/-- Exact conversions take no mode (R62). -/
def CvtPair.exact : CvtPair → Bool
  | .f32f16 | .f32bf16 | .f32e4m3 | .f32e5m2 => true
  | _ => false

def CvtPair.srcRegs : CvtPair → Nat
  | .f32i64 | .f32n64 => 2
  | _ => 1

def CvtPair.dstRegs : CvtPair → Nat
  | .i64f32 | .n64f32 => 2
  | _ => 1

/-- Loads of 8 bytes use a pair (R184). -/
def MemSz.regs : MemSz → Nat
  | .w64 => 2
  | _ => 1

def StSz.regs : StSz → Nat
  | .w64 => 2
  | _ => 1

/-- A record is named by `m`, standing for `w`(4m) (R183); every 4-bit `m` is one. -/
def MatPair.isRq : MatPair → Bool
  | .rq8 | .rq4 => true
  | _ => false

/-- The operand of an atomic (R195): for `cas` an aligned group of hold, near or uniform registers. -/
def Opd.okAtom (op : AtomOp) (w : Width) (o : Opd) : Bool :=
  match op with
  | .cas =>
    let al (i : Nat) : Bool := i % (2 * w.regs) == 0
    (match o with
     | .hold i => al i.toNat
     | .near i => al i.toNat
     | .uniform i => al i.toNat
     | _ => false)
  | _ => o.okNoLit w.regs

/-- The closure operand of the engine family (R306). -/
def cloOk : Option Opd → Bool
  | none => true
  | some o => o.okNoLit 1

/-- Compact 64-bit operands (R23). -/
def Opd8.ok (n : Nat) : Opd8 → Bool
  | .hold i => evenFor n i.toNat
  | .near i => evenFor n i.toNat
  | .uniform i => evenFor n i.toNat
  | _ => true

def Dst8.ok (n : Nat) : Dst8 → Bool
  | .none => true
  | .hold i => evenFor n i.toNat
  | .near i => evenFor n i.toNat
  | .uniform i => evenFor n i.toNat

/-- The check, constructor by constructor. -/
def Instr.wf : Instr → Bool
  | .add h w d a b => h.ok [a, b] && d.ok w.regs && a.ok h w.regs && b.ok h w.regs
  | .sub h w d a b => h.ok [a, b] && d.ok w.regs && a.ok h w.regs && b.ok h w.regs
  | .mul h w d a b => h.ok [a, b] && d.ok w.regs && a.ok h w.regs && b.ok h w.regs
  | .mulh h w d a b => h.ok [a, b] && d.ok w.regs && a.ok h w.regs && b.ok h w.regs
  | .mulhn h w d a b => h.ok [a, b] && d.ok w.regs && a.ok h w.regs && b.ok h w.regs
  | .div h w d a b => h.ok [a, b] && d.ok w.regs && a.ok h w.regs && b.ok h w.regs
  | .divn h w d a b => h.ok [a, b] && d.ok w.regs && a.ok h w.regs && b.ok h w.regs
  | .rem h w d a b => h.ok [a, b] && d.ok w.regs && a.ok h w.regs && b.ok h w.regs
  | .remn h w d a b => h.ok [a, b] && d.ok w.regs && a.ok h w.regs && b.ok h w.regs
  | .minS h w d a b => h.ok [a, b] && d.ok w.regs && a.ok h w.regs && b.ok h w.regs
  | .maxS h w d a b => h.ok [a, b] && d.ok w.regs && a.ok h w.regs && b.ok h w.regs
  | .minn h w d a b => h.ok [a, b] && d.ok w.regs && a.ok h w.regs && b.ok h w.regs
  | .maxn h w d a b => h.ok [a, b] && d.ok w.regs && a.ok h w.regs && b.ok h w.regs
  | .andB h w d a b => h.ok [a, b] && d.ok w.regs && a.ok h w.regs && b.ok h w.regs
  | .orB h w d a b => h.ok [a, b] && d.ok w.regs && a.ok h w.regs && b.ok h w.regs
  | .xorB h w d a b => h.ok [a, b] && d.ok w.regs && a.ok h w.regs && b.ok h w.regs
  | .andn h w d a b => h.ok [a, b] && d.ok w.regs && a.ok h w.regs && b.ok h w.regs
  | .orn h w d a b => h.ok [a, b] && d.ok w.regs && a.ok h w.regs && b.ok h w.regs
  | .shl h w d a b => h.ok [a, b] && d.ok w.regs && a.ok h w.regs && b.ok h 1
  | .shr h w d a b => h.ok [a, b] && d.ok w.regs && a.ok h w.regs && b.ok h 1
  | .sar h w d a b => h.ok [a, b] && d.ok w.regs && a.ok h w.regs && b.ok h 1
  | .rol h w d a b => h.ok [a, b] && d.ok w.regs && a.ok h w.regs && b.ok h 1
  | .ror h w d a b => h.ok [a, b] && d.ok w.regs && a.ok h w.regs && b.ok h 1
  | .mad h w d a b c => h.ok [a, b, c] && d.ok w.regs && a.ok h w.regs && b.ok h w.regs && c.ok h w.regs
  | .madh h w d a b c => h.ok [a, b, c] && d.ok w.regs && a.ok h w.regs && b.ok h w.regs && c.ok h w.regs
  | .lea h w d a b c => h.ok [a, b, c] && d.ok w.regs && a.ok h w.regs && b.ok h 1 && c.ok h 1
  | .bfx h w d a b => h.ok [a, b] && d.ok w.regs && a.ok h w.regs && b.ok h 1
  | .bfi h w d a b c => h.ok [a, b, c] && d.ok w.regs && a.ok h w.regs && b.ok h w.regs && c.ok h 1
  | .sel h w d a b _ => h.ok [a, b] && d.ok w.regs && a.ok h w.regs && b.ok h w.regs
  | .add3 h w d a b c => h.ok [a, b, c] && d.ok w.regs && a.ok h w.regs && b.ok h w.regs && c.ok h w.regs
  | .mov h w d a => h.ok [a] && d.ok w.regs && a.ok h w.regs
  | .neg h w d a => h.ok [a] && d.ok w.regs && a.ok h w.regs
  | .abs h w d a => h.ok [a] && d.ok w.regs && a.ok h w.regs
  | .notB h w d a => h.ok [a] && d.ok w.regs && a.ok h w.regs
  | .popc h w d a => h.ok [a] && d.ok w.regs && a.ok h w.regs
  | .clz h w d a => h.ok [a] && d.ok w.regs && a.ok h w.regs
  | .ctz h w d a => h.ok [a] && d.ok w.regs && a.ok h w.regs
  | .brev h w d a => h.ok [a] && d.ok w.regs && a.ok h w.regs
  | .sext8 h w d a => h.ok [a] && d.ok w.regs && a.ok h w.regs
  | .sext16 h w d a => h.ok [a] && d.ok w.regs && a.ok h w.regs
  | .zext8 h w d a => h.ok [a] && d.ok w.regs && a.ok h w.regs
  | .zext16 h w d a => h.ok [a] && d.ok w.regs && a.ok h w.regs
  | .cmp h _ w _ _ a b => h.ok [a, b] && a.ok h w.regs && b.ok h w.regs
  | .fadd h _ d a b => h.ok [a, b] && d.ok 1 && a.ok h 1 && b.ok h 1
  | .fsub h _ d a b => h.ok [a, b] && d.ok 1 && a.ok h 1 && b.ok h 1
  | .fmul h _ d a b => h.ok [a, b] && d.ok 1 && a.ok h 1 && b.ok h 1
  | .fmin h d a b => h.ok [a, b] && d.ok 1 && a.ok h 1 && b.ok h 1
  | .fmax h d a b => h.ok [a, b] && d.ok 1 && a.ok h 1 && b.ok h 1
  | .fminp h d a b => h.ok [a, b] && d.ok 1 && a.ok h 1 && b.ok h 1
  | .fmaxp h d a b => h.ok [a, b] && d.ok 1 && a.ok h 1 && b.ok h 1
  | .fscale h _ d a b => h.ok [a, b] && d.ok 1 && a.ok h 1 && b.ok h 1
  | .hadd2 h _ _ d a b => h.ok [a, b] && d.ok 1 && a.ok h 1 && b.ok h 1
  | .hsub2 h _ _ d a b => h.ok [a, b] && d.ok 1 && a.ok h 1 && b.ok h 1
  | .hmul2 h _ _ d a b => h.ok [a, b] && d.ok 1 && a.ok h 1 && b.ok h 1
  | .hmin2 h _ d a b => h.ok [a, b] && d.ok 1 && a.ok h 1 && b.ok h 1
  | .hmax2 h _ d a b => h.ok [a, b] && d.ok 1 && a.ok h 1 && b.ok h 1
  | .ffma h _ d a b c => h.ok [a, b, c] && d.ok 1 && a.ok h 1 && b.ok h 1 && c.ok h 1
  | .ffms h _ d a b c => h.ok [a, b, c] && d.ok 1 && a.ok h 1 && b.ok h 1 && c.ok h 1
  | .fnma h _ d a b c => h.ok [a, b, c] && d.ok 1 && a.ok h 1 && b.ok h 1 && c.ok h 1
  | .hfma2 h _ _ d a b c => h.ok [a, b, c] && d.ok 1 && a.ok h 1 && b.ok h 1 && c.ok h 1
  | .fabs h d a => h.ok [a] && d.ok 1 && a.ok h 1
  | .fneg h d a => h.ok [a] && d.ok 1 && a.ok h 1
  | .frnd h _ d a => h.ok [a] && d.ok 1 && a.ok h 1
  | .fclass h d a => h.ok [a] && d.ok 1 && a.ok h 1
  | .fsat h d a => h.ok [a] && d.ok 1 && a.ok h 1
  | .fcmp h _ _ _ _ a b => h.ok [a, b] && a.ok h 1 && b.ok h 1
  | .cvt h p rm d a => h.ok [a] && d.ok p.dstRegs && a.ok h p.srcRegs && (!p.exact || rm == .rne)
  | .rcp h d a => h.ok [a] && d.ok 1 && a.ok h 1
  | .rsq h d a => h.ok [a] && d.ok 1 && a.ok h 1
  | .sqrt h d a => h.ok [a] && d.ok 1 && a.ok h 1
  | .exp2 h d a => h.ok [a] && d.ok 1 && a.ok h 1
  | .log2 h d a => h.ok [a] && d.ok 1 && a.ok h 1
  | .sinpi h d a => h.ok [a] && d.ok 1 && a.ok h 1
  | .cospi h d a => h.ok [a] && d.ok 1 && a.ok h 1
  | .tanh h d a => h.ok [a] && d.ok 1 && a.ok h 1
  | .sigm h d a => h.ok [a] && d.ok 1 && a.ok h 1
  | .divf h d a b => h.ok [a, b] && d.ok 1 && a.ok h 1 && b.ok h 1
  | .bra h _ => h.ok []
  | .brx h a => h.ok [a] && a.ok h 2
  | .call h _ => h.ok []
  | .callx h a => h.ok [a] && a.ok h 2
  | .ret h => h.ok []
  | .exit h => h.ok []
  | .trap h a => h.ok [a] && a.ok h 1
  | .brk h => h.ok []
  | .jset h _ => h.ok []
  | .jadd h _ => h.ok []
  | .jclr h _ => h.ok []
  | .waitj h _ => h.ok []
  | .elect h _ => h.ok []
  | .sleepj h _ => h.ok []
  | .wakej h _ => h.ok []
  | .strand _ _ => true
  | .shfl h _ w d a b => h.ok [a, b] && d.ok w.regs && a.ok h w.regs && b.ok h 1
  | .lpush h d a b _ => h.ok [a, b] && d.okPush false && a.ok h 1 && b.ok h 1
  | .lpushWarp h d a b c => h.ok [a, b, c] && d.okPush true && a.ok h 1 && b.ok h 1 && c.ok h 1
  | .voteAny h _ _ _ => h.ok []
  | .voteAll h _ _ _ => h.ok []
  | .voteBallot h d _ _ => h.ok [] && d.ok 1
  | .voteEq h _ a => h.ok [a] && a.ok h 1
  | .redx h op w d a => h.ok [a] && d.ok w.regs && a.ok h w.regs && (!op.isFp || w == .w32)
  | .scanx h _ op w d a => h.ok [a] && d.ok w.regs && a.ok h w.regs && (!op.isFp || w == .w32)
  | .matchx h w d a => h.ok [a] && d.ok 1 && a.ok h w.regs
  | .ld h sz _ d _ b => h.ok [b] && d.okData sz.regs && b.ok h 1
  | .st h sz _ _ b c => h.ok [b, c] && b.ok h 1 && c.ok h sz.regs
  | .lds h sz _ d a b => h.ok [a, b] && d.okData sz.regs && a.ok h 1 && b.ok h 1
  | .sts h sz _ a b c => h.ok [a, b, c] && a.ok h 1 && b.ok h 1 && c.ok h sz.regs
  | .ldx h sz _ _ d a b => h.ok [a, b] && d.okData sz.regs && a.ok h 1 && b.ok h 1
  | .stx h sz _ _ a b c => h.ok [a, b, c] && a.ok h 1 && b.ok h 1 && c.ok h sz.regs
  | .ldw h w _ d _ b => h.ok [b] && d.okUni w.regs && b.ok h 1
  | .atom _ op w _ _ d _ b c => d.okData w.regs && b.okNoLit 1 && c.okAtom op w && !(op == .fadd && w == .w64)
  | .atoms _ op w _ _ d a b c => d.okData w.regs && a.okNoLit 1 && b.okNoLit 1 && c.okAtom op w && !(op == .fadd && w == .w64)
  | .fence h _ _ => h.ok []
  | .tagq h d a => h.ok [a] && d.ok 1 && a.ok h 1
  | .tagi h a b c => h.ok [a, b, c] && a.ok h 1 && b.ok h 1 && c.ok h 1
  | .tagx h a => h.ok [a] && a.ok h 1
  | .cpy h _ box _ clo a b _ => cloOk clo && a.ok h 1 && b.ok h 1 &&
    (match box with
     | none => h.ok [a, b]
     | some (e1, e0) => h.long && h.lit == e1 ++ e0)
  | .gath h _ clo a b v => h.ok [a, b, v] && cloOk clo && a.ok h 1 && b.ok h 1 && v.ok h 1
  | .coll h _ clo a b => h.ok [a, b] && cloOk clo && a.ok h 1 && b.ok h 1
  | .binit h _ a b c => h.ok [a, b, c] && a.ok h 1 && b.ok h 1 && c.ok h 1
  | .bexp h _ a b c => h.ok [a, b, c] && a.ok h 1 && b.ok h 1 && c.ok h 1
  | .barv h _ a b => h.ok [a, b] && a.ok h 1 && b.ok h 1
  | .bwait h _ a b c => h.ok [a, b, c] && a.ok h 1 && b.ok h 1 && c.ok h 1
  | .btest h _ _ a b c => h.ok [a, b, c] && a.ok h 1 && b.ok h 1 && c.ok h 1
  | .trig h => h.ok []
  | .mma h p _ _ keep _ a b => h.ok [a, b] && a.ok h 1 && b.ok h 1 && (!keep || p.isRq)
  | .mmag h p _ _ keep _ a b v => h.ok [a, b, v] && a.ok h 1 && b.ok h 1 && v.ok h 1 && (!keep || p.isRq)
  | .acz h => h.ok []
  | .acld h rns _ a => a.ok h 1 &&
    (match rns with
     | none => h.ok [a]
     | some b => h.ok [a, b] && b.ok h 1)
  | .acst h rns rm _ a => h.ok [a] && a.ok h 1 && (!rns || rm == .rne)
  | .had h _ a b => h.ok [a, b] && a.ok h 1 && b.ok h 1
  | .qnt h _ _ _ a => h.ok [a] && a.ok h 1
  | .snorm h _ a b => h.ok [a, b] && a.ok h 1 && b.ok h 1
  | .salias _ _ a b => a.okNoLit 1 && b.okNoLit 1
  | .spot _ _ _ _ _ _ a b _ => a.okNoLit 1 && b.okNoLit 1
  | .sstat h _ => h.ok []
  | .srr h _ d => h.ok [] && d.ok 2
  | .srw h _ b => h.ok [b] && b.ok h 2
  | .cede h => h.ok []
  | .cedeHold h => h.ok []
  | .cedeOpen h => h.ok []
  | .saveHold h a b => h.ok [a, b] && a.ok h 1 && b.ok h 1
  | .saveScr h a b => h.ok [a, b] && a.ok h 1 && b.ok h 1
  | .saveAcc h => h.ok []
  | .saveTag h => h.ok []
  | .trapretRestart h => h.ok []
  | .trapretSkip h => h.ok []
  | .watchOff h c => h.ok [c] && c.ok h 1
  | .watchW h a b c => h.ok [a, b, c] && a.ok h 2 && b.ok h 1 && c.ok h 1
  | .watchRw h a b c => h.ok [a, b, c] && a.ok h 2 && b.ok h 1 && c.ok h 1
  | .profStall h a b c => h.ok [a, b, c] && a.ok h 2 && b.ok h 1 && c.ok h 1
  | .profStop h => h.ok []
  | .profMem h a b c => h.ok [a, b, c] && a.ok h 2 && b.ok h 1 && c.ok h 1
  | .nop h => h.ok []
  | .thset h d a b => h.ok [a, b] && d.ok 1 && a.ok h 1 && b.ok h 1
  | .thdrop h a => h.ok [a] && a.ok h 1
  | .addC d a b => d.ok 1 && a.ok 1 && b.ok 1
  | .subC d a b => d.ok 1 && a.ok 1 && b.ok 1
  | .mulC d a b => d.ok 1 && a.ok 1 && b.ok 1
  | .mulhC d a b => d.ok 1 && a.ok 1 && b.ok 1
  | .mulhnC d a b => d.ok 1 && a.ok 1 && b.ok 1
  | .minC d a b => d.ok 1 && a.ok 1 && b.ok 1
  | .maxC d a b => d.ok 1 && a.ok 1 && b.ok 1
  | .minnC d a b => d.ok 1 && a.ok 1 && b.ok 1
  | .maxnC d a b => d.ok 1 && a.ok 1 && b.ok 1
  | .andC d a b => d.ok 1 && a.ok 1 && b.ok 1
  | .orC d a b => d.ok 1 && a.ok 1 && b.ok 1
  | .xorC d a b => d.ok 1 && a.ok 1 && b.ok 1
  | .andnC d a b => d.ok 1 && a.ok 1 && b.ok 1
  | .shlC d a b => d.ok 1 && a.ok 1 && b.ok 1
  | .shrC d a b => d.ok 1 && a.ok 1 && b.ok 1
  | .sarC d a b => d.ok 1 && a.ok 1 && b.ok 1
  | .rolC d a b => d.ok 1 && a.ok 1 && b.ok 1
  | .rorC d a b => d.ok 1 && a.ok 1 && b.ok 1
  | .add64C d a b => d.ok 2 && a.ok 2 && b.ok 2
  | .sub64C d a b => d.ok 2 && a.ok 2 && b.ok 2
  | .movC d a => d.ok 1 && a.ok 1
  | .mov64C d a => d.ok 2 && a.ok 2
  | .negC d a => d.ok 1 && a.ok 1
  | .notC d a => d.ok 1 && a.ok 1
  | .popcC d a => d.ok 1 && a.ok 1
  | .clzC d a => d.ok 1 && a.ok 1
  | .ctzC d a => d.ok 1 && a.ok 1
  | .sext8C d a => d.ok 1 && a.ok 1
  | .sext16C d a => d.ok 1 && a.ok 1
  | .zext8C d a => d.ok 1 && a.ok 1
  | .zext16C d a => d.ok 1 && a.ok 1
  | .faddC d a b => d.ok 1 && a.ok 1 && b.ok 1
  | .fsubC d a b => d.ok 1 && a.ok 1 && b.ok 1
  | .fmulC d a b => d.ok 1 && a.ok 1 && b.ok 1
  | .fminC d a b => d.ok 1 && a.ok 1 && b.ok 1
  | .fmaxC d a b => d.ok 1 && a.ok 1 && b.ok 1
  | .fminpC d a b => d.ok 1 && a.ok 1 && b.ok 1
  | .fmaxpC d a b => d.ok 1 && a.ok 1 && b.ok 1
  | .fscaleC d a b => d.ok 1 && a.ok 1 && b.ok 1
  | .hadd2F16C d a b => d.ok 1 && a.ok 1 && b.ok 1
  | .hsub2F16C d a b => d.ok 1 && a.ok 1 && b.ok 1
  | .hmul2F16C d a b => d.ok 1 && a.ok 1 && b.ok 1
  | .hadd2Bf16C d a b => d.ok 1 && a.ok 1 && b.ok 1
  | .hsub2Bf16C d a b => d.ok 1 && a.ok 1 && b.ok 1
  | .hmul2Bf16C d a b => d.ok 1 && a.ok 1 && b.ok 1
  | .fabsC d a => d.ok 1 && a.ok 1
  | .fnegC d a => d.ok 1 && a.ok 1
  | .rcpC d a => d.ok 1 && a.ok 1
  | .rsqC d a => d.ok 1 && a.ok 1
  | .sqrtC d a => d.ok 1 && a.ok 1
  | .exp2C d a => d.ok 1 && a.ok 1
  | .log2C d a => d.ok 1 && a.ok 1
  | .tanhC d a => d.ok 1 && a.ok 1
  | .sigmC d a => d.ok 1 && a.ok 1
  | .divfC d a b => d.ok 1 && a.ok 1 && b.ok 1
  | .cvtF32I32C d a => d.ok 1 && a.ok 1
  | .cvtI32F32C d a => d.ok 1 && a.ok 1
  | .cvtF32F16C d a => d.ok 1 && a.ok 1
  | .cvtF16F32C d a => d.ok 1 && a.ok 1
  | .shflIdxC d a b => d.ok 1 && a.ok 1 && b.ok 1
  | .shflXorC d a b => d.ok 1 && a.ok 1 && b.ok 1
  | .braC _ => true
  | .exitC => true
  | .fetchReturn _ => true
  | .sfuResult _ => true
  | .loadResult _ => true
  | .atomicResult _ => true
  | .tagqResult _ => true
  | .matrixUnitDone _ => true
  | .thsetComplete _ => true
  | .translationWalkDone _ _ _ => true
  | .emulationDone _ => true
  | .runAheadIssue _ => true
  | .windowFill _ => true
  | .windowExchange _ => true
  | .windowExchangeDone _ => true
  | .pageService _ _ _ _ => true
  | .engineJobStart _ _ => true
  | .engineJobAccess _ _ _ => true
  | .engineJobComplete _ _ => true
  | .launchRecord _ _ => true
  | .kick _ _ _ => true
  | .launchFrame _ _ _ => true
  | .dispatchParcel _ => true
  | .stagingDone _ _ _ => true
  | .parcelDone _ _ _ => true
  | .overrun _ _ _ => true
  | .hang _ _ _ => true
  | .sliceEnd _ => true
  | .sliceStart _ => true
  | .preemptHandlerEntry _ => true
  | .forcedSave _ => true
  | .resurveyStart _ => true
  | .resurveyScanEnd _ _ => true
  | .stallSample _ => true
  | .invalidatePage _ _ _ => true
  | .invalidationComplete _ _ => true
  | .migrationCopyDone _ _ _ _ => true
  | .frameFree _ _ _ => true
  | .scrubDone _ _ => true
  | .unitFailing _ _ => true
  | .evacuationDone _ => true
  | .swathStart _ => true
  | .swathComplete _ _ => true
  | .parityWalk _ => true
  | .partitionWrite _ _ _ => true
  | .contractWrite _ => true
  | .registerWrite _ _ _ => true
  | .haltGroup _ _ _ => true
  | .edit _ _ => true
  | .releaseGroup _ _ _ => true
  | .releaseThread _ _ => true
  | .precopyRound _ _ => true
  | .migrationStop _ => true
  | .migrationResume _ _ _ _ => true
  | .flitReceived _ _ _ => true
  | .portFailure _ => true
  | .remoteRequest _ _ _ _ _ _ => true
  | .collContribution _ _ _ _ => true
  | .hostWrite _ _ _ => true
  | .hostRead _ _ _ _ => true
  | .nvmeTransfer _ _ _ _ _ _ => true
  | .setPwrlim _ => true
  | .ownershipTransfer _ => true
  | .ownerInstall _ _ => true
  | .getVersion => true
  | .getCapabilities => true
  | .negotiateAlgorithms _ _ => true
  | .getDigests => true
  | .getCertificate _ => true
  | .challenge _ => true
  | .getMeasurements _ => true
  | .powerOnReset _ => true
  | .coolantFault _ _ => true
  | .junctionOvertemp _ => true
  | .powerThrottle _ _ => true
  | .debuggerAttach _ => true
  | .closureOperationPerformed _ => true
  | .storePerformed _ => true
  | .thdropAnswer _ => true
  | .watchSlotInstalled _ => true

/-- A well-formed instruction. -/
abbrev WellFormed (i : Instr) : Prop := i.wf = true

end Sys2Proof
end

