-- ==== Sys2Proof/Machine/Xlane.lean ====
section
/-! DEFINITION. The XLANE family (spec/06 R146 to R156): values moved between the lanes of a set. -/

namespace Sys2Proof.Machine

/-- A cross-lane instruction with a register result. `f` gives a lane's result from the flush flag, the guard-true lanes,
and every lane's first and second source. -/
def xDesc (h : Hdr) (t : Target) (srcs : List (Opd × Ty))
    (f : Bool → Mask → (Nat → Dword) → (Nat → Dword) → Nat → Dword) : Desc :=
  { guard := h.guard, lit := h.lit, srcs := srcs, tgt := t, xlane := true,
    fn := fun fl g xs _ l => f fl g (fun k => (xs k).getD 0 0) (fun k => (xs k).getD 1 0) l }

def isW64 : Width → Bool
  | .w32 => false
  | .w64 => true

/-! ### SHFL -/

/-- The source lane of a lane; none when it is out of range (R148). -/
def shflLane (mode : ShflMode) (i n : Nat) : Option Nat :=
  match mode with
  | .idx => some (n % 32)
  | .up => if i < n then none else some (i - n)
  | .down => if 31 < i + n then none else some (i + n)
  | .xor => some (Nat.xor i (n % 32))

def shflDesc (h : Hdr) (mode : ShflMode) (w : Width) (d : Dst) (a b : Opd) : Desc :=
  xDesc h (.reg d (isW64 w)) [(a, widthTy w), (b, .i32)] (fun _ g va vb l =>
    match shflLane mode l (lo32 (vb l)).toNat with
    | some k => if hasLane g k then va k else va l
    | none => va l)

/-- `SHFL` (R148). -/
def execShfl (h : Hdr) (mode : ShflMode) (w : Width) (d : Dst) (a b : Opd) (s : State) : Res :=
  (shflDesc h mode w d a b).run s

/-! ### LPUSH -/

/-- The lane whose push lands in a target lane: the highest that names it (R150). -/
def pushFrom (g : Mask) (tgt : Nat → Nat) (t : Nat) : Option Nat :=
  ((laneList g).filter (fun i => tgt i == t)).getLast?

/-- `LPUSH`, same warp (R150). -/
def execLpush (h : Hdr) (d : Dst) (a b : Opd) (pc : Option (BitVec 3)) (s : State) : Res :=
  let w := s.iw
  let g := w.guarded s.iss.mask h.guard
  let val (l : Nat) : Word := lo32 (a.val w s.iss h.lit l .i32)
  let tgt (l : Nat) : Nat := (b.val w s.iss h.lit l .i32).toNat % 32
  let out := (laneList g).foldl (fun (x : Warp) t =>
    match d, pushFrom g tgt t with
    | .reg r false, some i => x.writeReg t r 0 (val i)
    | _, _ => x) w
  let out := match pc with
    | none => out
    | some p => out.setPredIn p.toNat g (maskOf (fun i =>
        !(hasLane g (tgt i) && pushFrom g tgt (tgt i) == some i)))
  s.guardedRun { guard := h.guard, srcs := [(a, 1), (b, 1)], dsts := d.regs 1, strand := false, seals := false }
    (s.setIw (out.advance s.iss))

/-- A write on its way to a hold register of a lane, that of a held atomic included (R151, R389). -/
def State.holdPending (s : State) (gw l r : Nat) : Bool :=
  (s.onTheWay gw).any (fun w => match w with
    | .hold k _ => k == 256 * l + r
    | _ => false)

/-- A target lane stalls at an other-warp `LPUSH` of its own. -/
def Thread.atPush (t : Thread) : Bool := t.stat == .stalled 1

/-- Target lanes of a higher slot that stall at their own other-warp `LPUSH` are taken back (R151). -/
def State.pushBack (s : State) (tw : Nat) (ts : Mask) : State :=
  if tw ≤ s.iss.gw then s
  else s.restartThreads tw (maskOf (fun l => hasLane ts l && hasLane (s.warp tw).live l && ((s.warp tw).thread l).atPush))

/-- Every target lane is exited, or stands at a boundary with no outstanding write to d (R151). -/
def State.pushReady (s : State) (tw : Nat) (ts : Mask) (r : Nat) : Bool :=
  let w := s.warp tw
  (laneList ts).all (fun l => !(hasLane w.live l) || ((w.thread l).atBoundary && !(s.holdPending tw l r)))

/-- `LPUSH`, other warp (R151). -/
def execLpushWarp (h : Hdr) (d : Dst) (a b slot : Opd) (s : State) : Res :=
  let w := s.iw
  let g := w.guarded s.iss.mask h.guard
  let val (l : Nat) : Word := lo32 (a.val w s.iss h.lit l .i32)
  let tgt (l : Nat) : Nat := (b.val w s.iss h.lit l .i32).toNat % 32
  let tw := 16 * s.iss.quad + (slot.val w s.iss h.lit (lowest g) .i32).toNat % 16
  let ts := maskOf (fun t => (pushFrom g tgt t).isSome)
  let r : Nat := match d with
    | .reg (.hold i) _ => i.toNat
    | _ => 0
  s.guardedRun
    { guard := h.guard, srcs := [(a, 1), (b, 1), (slot, 1)], dsts := d.regs 1, strand := false, seals := true }
    (if g = 0 ∨ tw = s.iss.gw ∨ !(s.resident.contains tw) then s.sealNext
     else
       let s := s.pushBack tw ts
       if !(s.pushReady tw ts r) then s.waits 1
       else
         let t := s.warp tw
         let write (x : Warp) (l : Nat) : Warp :=
           match d, pushFrom g tgt l with
           | .reg (.hold _) false, some i => if hasLane t.live l && decide (r < t.hc) then x.setHold l r (val i) else x
           | _, _ => x
         (s.setWarp tw ((laneList ts).foldl write t)).sealNext)

/-! ### VOTE (R152) -/

/-- A predicate as a vote reads it. -/
def voteBit (pr : Nat → Nat → Bool) (inv : Bool) (q : BitVec 3) (l : Nat) : Bool := Bool.xor (pr l q.toNat) inv

def voteDesc (h : Hdr) (t : Target) (f : Mask → (Nat → Nat → Bool) → Dword) : Desc :=
  { guard := h.guard, lit := h.lit, srcs := [], tgt := t, xlane := true, fn := fun _ g _ pr _ => f g pr }

/-- `VOTE.any`. -/
def execVoteAny (h : Hdr) (pd : BitVec 3) (inv : Bool) (q : BitVec 3) (s : State) : Res :=
  (voteDesc h (.pred pd) (fun g pr => if (laneList g).any (voteBit pr inv q) then 1 else 0)).run s

/-- `VOTE.all`. -/
def execVoteAll (h : Hdr) (pd : BitVec 3) (inv : Bool) (q : BitVec 3) (s : State) : Res :=
  (voteDesc h (.pred pd) (fun g pr => if (laneList g).all (voteBit pr inv q) then 1 else 0)).run s

/-- `VOTE.ballot`. -/
def execVoteBallot (h : Hdr) (d : Dst) (inv : Bool) (q : BitVec 3) (s : State) : Res :=
  (voteDesc h (.reg d false) (fun g pr => zx (maskOf (fun l => hasLane g l && voteBit pr inv q l)))).run s

/-- `VOTE.eq`. -/
def execVoteEq (h : Hdr) (pd : BitVec 3) (a : Opd) (s : State) : Res :=
  (xDesc h (.pred pd) [(a, .i32)] (fun _ g va _ _ =>
    if (laneList g).all (fun l => va l == va (lowest g)) then 1 else 0)).run s

/-! ### REDX and SCANX (R93, R94, R153 to R155) -/

/-- Join two slots of the tree of R93. -/
def joinSlot (f : Dword → Dword → Dword) : Option Dword → Option Dword → Option Dword
  | x, none => x
  | none, y => y
  | some x, some y => some (f x y)

/-- One stage of the tree: neighbouring slots are joined. -/
def treeStage (f : Dword → Dword → Dword) : List (Option Dword) → List (Option Dword)
  | x :: y :: r => joinSlot f x y :: treeStage f r
  | r => r

/-- The tree of R93 over the 32 slots. -/
def treeSum (f : Dword → Dword → Dword) (ts : List (Option Dword)) : Dword :=
  match treeStage f (treeStage f (treeStage f (treeStage f (treeStage f ts)))) with
  | some x :: _ => x
  | _ => 0

/-- A reduction over the lanes of G (R154). Over one lane it is that lane's own bits, which R80 and R154 leave open for a NaN that is
not the canonical one (assumption 49). -/
def redValue (op : RedOp) (w : Width) (fl : Bool) (g : Mask) (va : Nat → Dword) : Dword :=
  treeSum (op.combine w fl) (lanes.map (fun l => if hasLane g l then some (va l) else none))

def redxDesc (h : Hdr) (op : RedOp) (w : Width) (d : Dst) (a : Opd) : Desc :=
  xDesc h (.reg d (isW64 w)) [(a, if op.isFp then .f32 else widthTy w)] (fun fl g va _ _ => redValue op w fl g va)

/-- `REDX` (R154). -/
def execRedx (h : Hdr) (op : RedOp) (w : Width) (d : Dst) (a : Opd) (s : State) : Res :=
  (redxDesc h op w d a).run s

/-- The inclusive prefix of a rising list of lanes (R94, R155). -/
def prefixOf (f : Dword → Dword → Dword) (va : Nat → Dword) : List Nat → Dword
  | [] => 0
  | l :: ls => ls.foldl (fun acc k => f acc (va k)) (va l)

/-- The prefix of one lane; the exclusive scan leaves the lane itself out (R155). -/
def scanValue (ex : Bool) (op : RedOp) (w : Width) (fl : Bool) (g : Mask) (va : Nat → Dword) (l : Nat) : Dword :=
  let ls := (laneList g).filter (fun k => if ex then decide (k < l) else decide (k ≤ l))
  if ls.isEmpty then op.identity w else prefixOf (op.combine w fl) va ls

def scanxDesc (h : Hdr) (ex : Bool) (op : RedOp) (w : Width) (d : Dst) (a : Opd) : Desc :=
  xDesc h (.reg d (isW64 w)) [(a, if op.isFp then .f32 else widthTy w)] (fun fl g va _ l => scanValue ex op w fl g va l)

/-- `SCANX` (R155). -/
def execScanx (h : Hdr) (ex : Bool) (op : RedOp) (w : Width) (d : Dst) (a : Opd) (s : State) : Res :=
  (scanxDesc h ex op w d a).run s

/-! ### MATCH -/

def matchDesc (h : Hdr) (w : Width) (d : Dst) (a : Opd) : Desc :=
  xDesc h (.reg d false) [(a, widthTy w)] (fun _ g va _ l => zx (maskOf (fun j => hasLane g j && va j == va l)))

/-- `MATCH` (R156). -/
def execMatchx (h : Hdr) (w : Width) (d : Dst) (a : Opd) (s : State) : Res :=
  (matchDesc h w d a).run s

end Sys2Proof.Machine
end

