-- ==== Sys2Proof/Machine/Atomic.lean ====
section
/-! DEFINITION. The ATOMIC family (spec/08 R195 to R198) and `ATOMIC_RESULT`. -/

namespace Sys2Proof.Machine

/-- The value an atomic writes (R196): from the old value, the operand and, for `cas`, the compare value. -/
def atomNew (op : AtomOp) (w : Width) (v c cmp : Dword) : Dword :=
  match op with
  | .add => trunc w (v + c)
  | .min => if sInt w c < sInt w v then trunc w c else trunc w v
  | .max => if sInt w v < sInt w c then trunc w c else trunc w v
  | .minn => if nNat w c < nNat w v then trunc w c else trunc w v
  | .maxn => if nNat w v < nNat w c then trunc w c else trunc w v
  | .and => trunc w (v &&& c)
  | .or => trunc w (v ||| c)
  | .xor => trunc w (v ^^^ c)
  | .xchg => trunc w c
  | .cas => if trunc w v = trunc w cmp then trunc w c else trunc w v
  | .fadd => zx (addRn (lo32 v) (lo32 c))

def atomBytes : Width → Nat
  | .w32 => 4
  | .w64 => 8
def atomRegs : Width → Nat
  | .w32 => 1
  | .w64 => 2
def atomWide : Width → Bool
  | .w32 => false
  | .w64 => true

/-- Registers of the operand: a group of twice the width for `cas` (R195). -/
def atomSrc (op : AtomOp) (w : Width) : Nat := if op = .cas then 2 * atomRegs w else atomRegs w

/-- Register k of a group. -/
def Opd.word (w : Warp) (l k : Nat) : Opd → Word
  | .hold r => w.getHold l (r.toNat + k)
  | .near r => w.getNear l (r.toNat + k)
  | .uniform r => w.getUni (r.toNat + k)
  | _ => 0

/-- Operand and compare value of a lane: for `cas` the second and the first half of the group; `fadd` reads an FP32 operand (R56,
R196). -/
def atomArgs (wp : Warp) (i : Issue) (op : AtomOp) (w : Width) (c : Opd) (l : Nat) : Dword × Dword :=
  if op = .cas then
    match w with
    | .w32 => (zx (Machine.Opd.word wp l 1 c), zx (Machine.Opd.word wp l 0 c))
    | .w64 => (pair64 (Machine.Opd.word wp l 2 c) (Machine.Opd.word wp l 3 c),
               pair64 (Machine.Opd.word wp l 0 c) (Machine.Opd.word wp l 1 c))
  else (c.val wp i 0 l (if op = .fadd then .f32 else widthTy w), 0)

/-- Perform an atomic at a memory key: the old value, or a cause (R197, R357). -/
def State.atomAt (s : State) (k : Nat) (op : AtomOp) (w : Width) (c cmp : Dword) : State × Except Byte Dword :=
  let n := atomBytes w
  match s.meetRead k n with
  | .error x => (s, .error x)
  | .ok s =>
    let v := BitVec.ofNat 64 (s.rd k n)
    if op = .cas ∧ trunc w v ≠ trunc w cmp then (s, .ok v)
    else
      match s.store k (leBytes n (atomNew op w v c cmp).toNat) with
      | .error x => (s, .error x)
      | .ok s => (s, .ok v)

/-- The operand of an atomic that a held write or a request carries: operand, then compare value. -/
def atomBytesOf (w : Width) (x : Dword × Dword) : List Byte := leBytes (atomBytes w) x.1.toNat ++ leBytes (atomBytes w) x.2.toNat

def atomRel : AtomOrd → Bool
  | .rel | .ar => true
  | _ => false

/-- A lane's atomic is held: its thread waits for the result (R389). -/
def Gathered.holdAtom (g : Gathered) (h : Held) : Gathered :=
  { g with s := g.s.hold h, behind := g.behind ++ [g.s.nextId], waits := g.waits ||| laneBit h.lane }

/-- One more lane of an `ATOM`: performed at its home, held (R389, R399), or sent through a window (R430). -/
def Gathered.atomLane (g : Gathered) (grp : Nat) (op : AtomOp) (w : Width) (d : Dst) (args : Nat → Dword × Dword)
    (l a : Nat) : TRes → Gathered
  | .fault _ => g
  | .window j =>
    match g.s.remote g.s.iw.vdev j (.atom op w) a (atomBytesOf w (args l)) with
    | (s, some v) => { g with s := s, writes := g.writes ++ loadWrites d (atomWide w) l (trunc w v) }
    | (s, none) => { g with s := s, remote := g.remote ||| laneBit l }
  | .ok k mig =>
    let sw := g.s.inMotion k
    let n := atomBytes w
    if mig || sw.isSome || g.s.mateHeld grp a k n then
      g.holdAtom { g.s.heldOf grp l a k (List.replicate n 0) sw with
        atom := some (op, w, (args l).1, (args l).2), dst := d }
    else
      match g.s.atomAt k op w (args l).1 (args l).2 with
      | (s, .ok v) => { g with s := s, writes := g.writes ++ loadWrites d (atomWide w) l v }
      | (s, .error c) =>
        { g with s := s, writes := g.writes ++ loadWrites d (atomWide w) l 0,
                 kill := if g.kill = 0 then c else g.kill, killed := g.killed ||| laneBit l }

/-- Threads wait for the result of an operation in flight (R389). -/
def State.awaitFlight (s : State) (m : Mask) (id : Nat) : State :=
  if m = 0 then s else s.setIw (s.iw.mapThreads m (fun _ t => { t with stat := .stalled id }))

/-- `ATOM` for the lanes of `m` (R181, R196 to R198), once its threads have no held write to the bytes it touches, and a release once
they have none (R187, R194, R389): lanes that fault perform nothing, the others their operation; the
strand seals for every thread that no fault stops (R39). -/
def State.deviceAtom (s : State) (m : Mask) (r : BufRec) (idx : Nat → Nat) (op : AtomOp) (w : Width) (rel : Bool)
    (d : Dst) (args : Nat → Dword × Dword) : State :=
  let vdev := s.iw.vdev
  let n := atomBytes w
  if m = 0 then (s.sampleNow 0 0 0).sealNext
  else
    let as := (laneList m).map (fun l => (l, if r.bad true then .fail 0x0F else r.addr (idx l) n))
    let fails := failsOf as
    let c := s.contract vdev
    let locs := locsOf as
    let hits := locs.filterMap (fun x => (c.watchHit true x.2 n).map (fun b => (x.1, b)))
    let hit := maskOfLanes (hits.map (·.1))
    let live := locs.filter (fun x => !(hasLane hit x.1))
    let t := s.translateLines (dieOfQuad s.iss.quad) vdev true (linesOf live)
    if s.behindHeld rel m n (placesOf t.2 live) then s.waits 0
    else
      let pf := pageExcs t.2 live
      let kx := killExcs t.2 live
      let bad := (fails ++ pf ++ kx).foldl (fun b e => b ||| e.mask) hit
      let good := if s.iw.wide && bad != 0 then [] else live.filter (fun x => !(hasLane bad x.1))
      let g := good.foldl (fun (g : Gathered) x => g.atomLane t.1.nextId op w d args x.1 x.2 (placeOf t.2 x.2)) (Gathered.start t.1)
      let zero := as.filterMap (fun x => if x.2 == .clamp then some x.1 else none)
      let ws := g.writes ++ (zero.map (fun l => loadWrites d (atomWide w) l 0)).flatten
      let stop := bad ||| g.remote
      let whole : Bool := s.iw.wide && stop != 0
      let fl := if whole then 0 else m &&& ~~~ stop
      let sm := g.s.memSample m fl (sectsOf locs).length (linesOf locs).length
      let f := { sm.1.flightOf .atomic fl 0 false ws with kill := g.kill, killed := g.killed, behind := g.behind, sample := sm.2 }
      let s := if fl = 0 then sm.1.writeTaken sm.2 else sm.1.launchFlight f
      let s := if whole then s else s.sealIn (s.iss.mask &&& ~~~ stop) (fun _ => s.iss.next)
      (s.awaitFlight (fl &&& g.waits) sm.1.nextId).takeAll (watchExc hits ++ fails ++ excIf cRemote g.remote ++ pf ++ kx)

/-- `ATOM` (R196). -/
def execAtom (g : Guard) (op : AtomOp) (w : Width) (o : AtomOrd) (_sc : Scope) (d : Dst) (r : BitVec 4) (b c : Opd)
    (s : State) : Res :=
  let wp := s.iw
  s.memRun
    { guard := g, srcs := [(.uniform (r.setWidth 6 * 4), 4), (b, 1), (c, atomSrc op w)], dsts := d.regs (atomRegs w),
      strand := false, seals := true }
    (s.deviceAtom (wp.guarded s.iss.mask g) (wp.bufRec r) (fun l => (lo32 (b.val wp s.iss 0 l .i32)).toNat) op w
      (atomRel o) d (atomArgs wp s.iss op w c))

/-- Lanes that name a location a lower lane has named (R192). -/
def repeats (locs : List (Nat × Nat)) : Nat :=
  (locs.filter (fun x => locs.any (fun y => decide (y.1 < x.1) && y.2 == x.2))).length

/-- One more lane of an `ATOMS`, performed at its bank. -/
def Gathered.scrAtomLane (g : Gathered) (op : AtomOp) (w : Width) (d : Dst) (args : Nat → Dword × Dword) (l k : Nat) : Gathered :=
  match g.s.atomAt k op w (args l).1 (args l).2 with
  | (s, .ok v) => { g with s := s, writes := g.writes ++ loadWrites d (atomWide w) l v }
  | (s, .error c) => { g with s := s, writes := g.writes ++ loadWrites d (atomWide w) l 0,
                              kill := if g.kill = 0 then c else g.kill, killed := g.killed ||| laneBit l }

/-- `ATOMS` for the lanes of `m` (R190, R192, R196 to R198); a release waits at its instruction behind its threads' held writes
(R194, R389). -/
def State.scrAtom (s : State) (m : Mask) (addr : Nat → LaneAddr) (op : AtomOp) (w : Width) (rel : Bool) (d : Dst)
    (args : Nat → Dword × Dword) : State :=
  if m = 0 then (s.sampleNow 0 0 0).sealNext
  else if rel && s.anyHeld s.iss.gw m then s.waits 0
  else
    let as := (laneList m).map (fun l => (l, addr l))
    let fails := failsOf as
    let stop := fails.foldl (fun b e => b ||| e.mask) 0
    let whole : Bool := s.iw.wide && stop != 0
    let locs := if whole then [] else locsOf as
    let g := locs.foldl (fun (g : Gathered) x => g.scrAtomLane op w d args x.1 x.2) (Gathered.start s)
    let p := g.s.passes locs
    let b := if locs.isEmpty then (g.s, g.s.iss.clk) else g.s.bankEnd p
    let fl := if whole then 0 else m &&& ~~~ stop
    let sm := b.1.memSample m fl (scrLines locs) p
    let f := { sm.1.flightOf .atomic fl (b.2 + 10 + repeats locs) true g.writes with
      kill := g.kill, killed := g.killed, sample := sm.2 }
    let s := if fl = 0 then sm.1.writeTaken sm.2 else sm.1.launchFlight f
    (if whole then s else s.sealIn (s.iss.mask &&& ~~~ stop) (fun _ => s.iss.next)).takeAll fails

/-- `ATOMS` (R196). -/
def execAtoms (g : Guard) (op : AtomOp) (w : Width) (o : AtomOrd) (_sc : Scope) (d : Dst) (a b c : Opd) (s : State) : Res :=
  let wp := s.iw
  s.memRun
    { guard := g, srcs := [(a, 1), (b, 1), (c, atomSrc op w)], dsts := d.regs (atomRegs w), strand := false, seals := true }
    (s.scrAtom (wp.guarded s.iss.mask g)
      (fun l => s.ldsAddr (a.val wp s.iss 0 l .i32) (b.val wp s.iss 0 l .i32) (atomBytes w)) op w (atomRel o) d
      (atomArgs wp s.iss op w c))

/-- `ATOMIC_RESULT`: the old value returns from its home (R197), or the access ends in a kill (R354). -/
def dueAtomicResult (id : Nat) (s : State) : Option State :=
  match s.flight? id .atomic with
  | none => none
  | some f =>
    if !(s.ripe f && s.unblocked f) then none
    else if f.kill != 0 then some (s.killFlight f f.kill)
    else some (s.land f)

/-- `ATOMIC_RESULT`: as `dueAtomicResult` has it; while the event is not due it does not take place, and nothing changes (assumption 14). -/
def execAtomicResult (id : Nat) (s : State) : Res :=
  State.after s (dueAtomicResult id s)

end Sys2Proof.Machine
end

