-- ==== Sys2Proof/Decode.lean ====
section
/-! DEFINITION. Decoding and encoding (spec/03 and the encoding tables of the family pages). `decode` is total:
words that are no instruction are rejected by the cause that R59 ranks first. -/

namespace Sys2Proof

/-- Why words are no instruction (R47, R58, R59): by the cause codes of spec/09 R206. -/
inductive Bad where
  | illegalLength | illegalOpcode | reservedField | illegalOperand
deriving DecidableEq, Repr

/-- The fields of a 64-bit or 96-bit form (R50). -/
structure Raw where
  x    : Bool
  nw   : Bool
  gneg : Bool
  gidx : BitVec 3
  dst  : BitVec 10
  fn   : BitVec 6
  maj  : BitVec 8
  long : Bool
  m    : BitVec 2
  c    : BitVec 10
  b    : BitVec 10
  a    : BitVec 10
  lit  : Word
deriving DecidableEq, Repr

def boolBit (b : Bool) : BitVec 1 := if b then 1 else 0
def bitBool (b : BitVec 1) : Bool := b == 1

/-- Word 0 of a form (R50). -/
def Raw.word0 (r : Raw) : Word :=
  boolBit r.x ++ boolBit r.nw ++ boolBit r.gneg ++ r.gidx ++ r.dst ++ r.fn ++ r.maj ++
    (if r.long then (3 : BitVec 2) else 2)

/-- Word 1 of a form (R50). -/
def Raw.word1 (r : Raw) : Word := r.m ++ r.c ++ r.b ++ r.a

/-- The words of a form, first word first. -/
def Raw.words (r : Raw) : List Word :=
  if r.long then [r.word0, r.word1, r.lit] else [r.word0, r.word1]

/-- The fields of words 0, 1 and, in a 96-bit form, 2. -/
def Raw.of (w0 w1 lit : Word) : Raw :=
  { x := bitBool (w0.extractLsb' 31 1), nw := bitBool (w0.extractLsb' 30 1), gneg := bitBool (w0.extractLsb' 29 1),
    gidx := w0.extractLsb' 26 3, dst := w0.extractLsb' 16 10, fn := w0.extractLsb' 10 6, maj := w0.extractLsb' 2 8,
    long := w0.extractLsb' 0 2 == 3, m := w1.extractLsb' 30 2, c := w1.extractLsb' 20 10, b := w1.extractLsb' 10 10,
    a := w1.extractLsb' 0 10, lit := lit }

def Raw.hdr (r : Raw) : Hdr := { guard := { neg := r.gneg, idx := r.gidx }, long := r.long, lit := r.lit }

/-! ### Operand specifiers (R28, R53, R68) -/

def Special.code : Special → Nat
  | .z => 0x115 | .lane => 0x116 | .wslot => 0x117 | .nthr => 0x118 | .smask => 0x119 | .live => 0x11A
  | .quad => 0x11B | .core => 0x11C | .clk => 0x11D | .f1 => 0x11E

def Special.ofCode : Nat → Option Special
  | 0x115 => some .z | 0x116 => some .lane | 0x117 => some .wslot | 0x118 => some .nthr | 0x119 => some .smask
  | 0x11A => some .live | 0x11B => some .quad | 0x11C => some .core | 0x11D => some .clk | 0x11E => some .f1
  | _ => none

def DReg.code : DReg → BitVec 10
  | .hold i => i.setWidth 10
  | .near i => 0x100 + i.setWidth 10
  | .uniform i => 0x140 + i.setWidth 10

def Opd.code : Opd → BitVec 10
  | .hold i => i.setWidth 10
  | .near i => 0x100 + i.setWidth 10
  | .latch i => 0x110 + i.setWidth 10
  | .special v => BitVec.ofNat 10 v.code
  | .uniform i => 0x140 + i.setWidth 10
  | .imm v => 0x200 + v.setWidth 10
  | .lit => 0x3FF

/-- A register code (R53). -/
def DReg.ofCode (c : BitVec 10) : Option DReg :=
  let n := c.toNat
  if n < 0x100 then some (.hold (c.setWidth 8))
  else if n < 0x110 then some (.near (c.setWidth 4))
  else if n < 0x140 then none
  else if n < 0x180 then some (.uniform (c.setWidth 6))
  else none

/-- A source code (R53); `_` and the unassigned codes are none. -/
def Opd.ofCode (c : BitVec 10) : Option Opd :=
  let n := c.toNat
  if n < 0x100 then some (.hold (c.setWidth 8))
  else if n < 0x110 then some (.near (c.setWidth 4))
  else if n < 0x114 then some (.latch (c.setWidth 2))
  else if n < 0x120 then (Special.ofCode n).map .special
  else if n < 0x140 then none
  else if n < 0x180 then some (.uniform (c.setWidth 6))
  else if n < 0x200 then none
  else if n < 0x300 then some (.imm (c.setWidth 8))
  else if n = 0x3FF then some .lit
  else none

/-- A source of `n` registers of a form: an odd pair, an unassigned code, or the literal of a 64-bit form is
`ILLEGAL_OPERAND` (R23, R53, R54). -/
def Raw.src (r : Raw) (c : BitVec 10) (n : Nat) : Option Opd :=
  match Opd.ofCode c with
  | some o => if o.ok r.hdr n then some o else none
  | none => none

/-- A source that may not be the literal (R195, R273, R275, R306). -/
def srcNoLit (c : BitVec 10) (n : Nat) : Option Opd :=
  match Opd.ofCode c with
  | some o => if o.okNoLit n then some o else none
  | none => none

def Dst.code : Dst → BitVec 10
  | .none => 0x114
  | .reg r _ => r.code

def Dst.nwBit : Dst → Bool
  | .none => true
  | .reg _ nw => nw

/-- The destination field (R52, R55), before its level and evenness are checked. -/
def Raw.dest (r : Raw) : Option Dst :=
  if r.dst = 0x114 then (if r.nw then some .none else none)
  else
    match DReg.ofCode r.dst with
    | some d => some (.reg d r.nw)
    | none => none

/-- The destination, when `ok` holds of it. -/
def Raw.destIf (r : Raw) (ok : Dst → Bool) : Option Dst :=
  match r.dest with
  | some d => if ok d then some d else none
  | none => none

/-- Word 2 of a form is non-zero and none of its sources names the literal (R54). -/
def Raw.litBad (r : Raw) (cs : List (BitVec 10)) : Bool := r.lit != 0 && !(cs.contains 0x3FF)

/-- A predicate field: the bits above [2:0] must be 0 (R57). -/
def predBad (c : BitVec 10) : Bool := c.extractLsb' 3 7 != 0
def predOf (c : BitVec 10) : BitVec 3 := c.extractLsb' 0 3
def predCode (p : BitVec 3) : BitVec 10 := p.setWidth 10

/-- A rejoin-mask field (R57). -/
def maskBad (c : BitVec 10) : Bool := c.extractLsb' 4 6 != 0
def maskIdx (c : BitVec 10) : BitVec 4 := c.extractLsb' 0 4
def maskCode (j : BitVec 4) : BitVec 10 := j.setWidth 10

/-! ### Selectors (R62 to R66, R184, R185) -/

def Width.code : Width → BitVec 2
  | .w32 => 0 | .w64 => 1
def widthOf : BitVec 2 → Option Width
  | 0 => some .w32 | 1 => some .w64 | _ => none
def Width.bit : Width → Bool
  | .w32 => false | .w64 => true
def widthBit (b : Bool) : Width := if b then .w64 else .w32

def Rnd.code : Rnd → BitVec 2
  | .rne => 0 | .rtz => 1 | .rdn => 2 | .rup => 3
def rndOf : BitVec 2 → Rnd
  | 0 => .rne | 1 => .rtz | 2 => .rdn | 3 => .rup

def Half.bit : Half → Bool
  | .f16 => false | .bf16 => true
def halfOf (b : Bool) : Half := if b then .bf16 else .f16

def CmpCond.code : CmpCond → BitVec 6
  | .eq => 0 | .ne => 1 | .lt => 2 | .le => 3 | .gt => 4 | .ge => 5 | .ltn => 6 | .len => 7 | .gtn => 8 | .gen => 9
  | .tst => 10 | .tstz => 11
def cmpCondOf : BitVec 6 → Option CmpCond
  | 0 => some .eq | 1 => some .ne | 2 => some .lt | 3 => some .le | 4 => some .gt | 5 => some .ge | 6 => some .ltn
  | 7 => some .len | 8 => some .gtn | 9 => some .gen | 10 => some .tst | 11 => some .tstz | _ => none

def FCmpCond.code : FCmpCond → BitVec 6
  | .eq => 0 | .ne => 1 | .lt => 2 | .le => 3 | .gt => 4 | .ge => 5 | .num => 6 | .nan => 7 | .neu => 8 | .ltu => 9
  | .leu => 10 | .gtu => 11 | .geu => 12 | .equ => 13
def fcmpCondOf : BitVec 6 → Option FCmpCond
  | 0 => some .eq | 1 => some .ne | 2 => some .lt | 3 => some .le | 4 => some .gt | 5 => some .ge | 6 => some .num
  | 7 => some .nan | 8 => some .neu | 9 => some .ltu | 10 => some .leu | 11 => some .gtu | 12 => some .geu
  | 13 => some .equ | _ => none

def CmpFmt.code : CmpFmt → BitVec 2
  | .f32 => 0 | .f16 => 1 | .bf16 => 2
def cmpFmtOf : BitVec 2 → Option CmpFmt
  | 0 => some .f32 | 1 => some .f16 | 2 => some .bf16 | _ => none

/-- The combine field of `CMP` and `FCMP` (R108). -/
def Combine.code : Combine → BitVec 10
  | .none => 0
  | .and n q => (0 : BitVec 4) ++ boolBit n ++ (1 : BitVec 2) ++ q
  | .or n q => (0 : BitVec 4) ++ boolBit n ++ (2 : BitVec 2) ++ q
  | .xor n q => (0 : BitVec 4) ++ boolBit n ++ (3 : BitVec 2) ++ q
/-- None is a reserved bit set. -/
def combineOf (c : BitVec 10) : Option Combine :=
  if c.extractLsb' 6 4 != 0 then none
  else
    let n := bitBool (c.extractLsb' 5 1)
    let q := c.extractLsb' 0 3
    match c.extractLsb' 3 2 with
    | 0 => if c == 0 then some .none else none
    | 1 => some (.and n q)
    | 2 => some (.or n q)
    | 3 => some (.xor n q)

def CvtPair.code : CvtPair → BitVec 6
  | .f32f16 => 0 | .f32bf16 => 1 | .f16f32 => 2 | .bf16f32 => 3 | .f16bf16 => 4 | .bf16f16 => 5 | .f32e4m3 => 6
  | .f32e5m2 => 7 | .e4m3f32 => 8 | .e5m2f32 => 9 | .f32i32 => 10 | .f32n32 => 11 | .i32f32 => 12 | .n32f32 => 13
  | .f32i64 => 14 | .f32n64 => 15 | .i64f32 => 16 | .n64f32 => 17 | .i8f32 => 18 | .n8f32 => 19 | .i16f32 => 20
  | .n16f32 => 21
def cvtPairOf : BitVec 6 → Option CvtPair
  | 0 => some .f32f16 | 1 => some .f32bf16 | 2 => some .f16f32 | 3 => some .bf16f32 | 4 => some .f16bf16
  | 5 => some .bf16f16 | 6 => some .f32e4m3 | 7 => some .f32e5m2 | 8 => some .e4m3f32 | 9 => some .e5m2f32
  | 10 => some .f32i32 | 11 => some .f32n32 | 12 => some .i32f32 | 13 => some .n32f32 | 14 => some .f32i64
  | 15 => some .f32n64 | 16 => some .i64f32 | 17 => some .n64f32 | 18 => some .i8f32 | 19 => some .n8f32
  | 20 => some .i16f32 | 21 => some .n16f32 | _ => none

def ShflMode.code : ShflMode → BitVec 2
  | .idx => 0 | .up => 1 | .down => 2 | .xor => 3
def shflOf : BitVec 2 → ShflMode
  | 0 => .idx | 1 => .up | 2 => .down | 3 => .xor

def RedOp.code : RedOp → BitVec 4
  | .add => 0 | .min => 1 | .max => 2 | .minn => 3 | .maxn => 4 | .and => 5 | .or => 6 | .xor => 7 | .fadd => 8
  | .fmin => 9 | .fmax => 10
def redOf : BitVec 4 → Option RedOp
  | 0 => some .add | 1 => some .min | 2 => some .max | 3 => some .minn | 4 => some .maxn | 5 => some .and
  | 6 => some .or | 7 => some .xor | 8 => some .fadd | 9 => some .fmin | 10 => some .fmax | _ => none

/-- sz: `X` as bit 2, `M` as bits [1:0] (R184). -/
def MemSz.code : MemSz → Bool × BitVec 2
  | .n8 => (false, 0) | .i8 => (false, 1) | .n16 => (false, 2) | .i16 => (false, 3) | .w32 => (true, 0)
  | .w64 => (true, 1)
def memSzOf : Bool → BitVec 2 → Option MemSz
  | false, 0 => some .n8 | false, 1 => some .i8 | false, 2 => some .n16 | false, 3 => some .i16
  | true, 0 => some .w32 | true, 1 => some .w64 | _, _ => none

def StSz.code : StSz → Bool × BitVec 2
  | .b8 => (false, 0) | .b16 => (false, 2) | .w32 => (true, 0) | .w64 => (true, 1)
def stSzOf : Bool → BitVec 2 → Option StSz
  | false, 0 => some .b8 | false, 2 => some .b16 | true, 0 => some .w32 | true, 1 => some .w64 | _, _ => none

def Scope.code : Scope → BitVec 3
  | .warp => 0 | .grp => 1 | .core => 2 | .tract => 3 | .die => 4 | .pkg => 5 | .sys => 6
def scopeOf : BitVec 3 → Option Scope
  | 0 => some .warp | 1 => some .grp | 2 => some .core | 3 => some .tract | 4 => some .die | 5 => some .pkg
  | 6 => some .sys | _ => none

/-- The `ord` field (R185) with its core term. -/
def Ord.code (o : Ord) (core : BitVec 2) : BitVec 10 :=
  match o with
  | .plain => (0 : BitVec 4) ++ core ++ (0 : BitVec 1) ++ (0 : BitVec 3)
  | .sync s => (0 : BitVec 4) ++ core ++ (1 : BitVec 1) ++ s.code
/-- Scope 7 with `SYNC` set is `ILLEGAL_OPCODE`. -/
def ordIllegal (c : BitVec 10) : Bool := c.extractLsb' 3 1 == 1 && c.extractLsb' 0 3 == 7
/-- Reserved bits of the field; `core`: whether the form has a core term. -/
def ordReserved (c : BitVec 10) (core : Bool) : Bool :=
  c.extractLsb' 6 4 != 0 || (!core && c.extractLsb' 4 2 != 0) || (c.extractLsb' 3 1 == 0 && c.extractLsb' 0 3 != 0)
def ordOf (c : BitVec 10) : Ord :=
  if c.extractLsb' 3 1 == 1 then
    match scopeOf (c.extractLsb' 0 3) with
    | some s => .sync s
    | none => .plain
  else .plain

/-- The record operand `w`(4m) (R183). -/
def recCode (m : BitVec 4) : BitVec 10 := 0x140 + (m ++ (0 : BitVec 2)).setWidth 10
def recOf (c : BitVec 10) : Option (BitVec 4) :=
  if c.extractLsb' 6 4 == 5 && c.extractLsb' 0 2 == 0 then some (c.extractLsb' 2 4) else none

def AtomOp.code : AtomOp → BitVec 6
  | .add => 0 | .min => 1 | .max => 2 | .minn => 3 | .maxn => 4 | .and => 5 | .or => 6 | .xor => 7 | .xchg => 8
  | .cas => 9 | .fadd => 10
def atomOpOf : BitVec 6 → Option AtomOp
  | 0 => some .add | 1 => some .min | 2 => some .max | 3 => some .minn | 4 => some .maxn | 5 => some .and
  | 6 => some .or | 7 => some .xor | 8 => some .xchg | 9 => some .cas | 10 => some .fadd | _ => none

def AtomOrd.code : AtomOrd → BitVec 2
  | .rlx => 0 | .acq => 1 | .rel => 2 | .ar => 3
def atomOrdOf : BitVec 2 → AtomOrd
  | 0 => .rlx | 1 => .acq | 2 => .rel | 3 => .ar

/-- The control word of ATOMIC (R195). -/
def atomWord (w : Width) (o : AtomOrd) (s : Scope) : Word :=
  (0 : BitVec 24) ++ boolBit w.bit ++ o.code ++ (0 : BitVec 2) ++ s.code

def FenceKind.code : FenceKind → BitVec 2
  | .ar => 0 | .acq => 1 | .rel => 2
def fenceOf : BitVec 2 → Option FenceKind
  | 0 => some .ar | 1 => some .acq | 2 => some .rel | _ => none

def MatPair.code : MatPair → BitVec 4
  | .rq8 => 0 | .rq4 => 1 | .e4e4 => 2 | .e4e5 => 3 | .e5e4 => 4 | .e5e5 => 5 | .bf16 => 6 | .f16 => 7 | .f32 => 8
def matPairOf : BitVec 4 → Option MatPair
  | 0 => some .rq8 | 1 => some .rq4 | 2 => some .e4e4 | 3 => some .e4e5 | 4 => some .e5e4 | 5 => some .e5e5
  | 6 => some .bf16 | 7 => some .f16 | 8 => some .f32 | _ => none

def Dim.code : Dim → BitVec 2
  | .d32 => 0 | .d64 => 1 | .d128 => 2
def dimOf : BitVec 2 → Option Dim
  | 0 => some .d32 | 1 => some .d64 | 2 => some .d128 | _ => none

/-- `MEMB` and `GANG` (R247, R275). -/
def Gang.code : Gang → BitVec 4
  | .quad => 0
  | .core m => m ++ (1 : BitVec 2)
  | .tract m => m ++ (2 : BitVec 2)
/-- None: a gang code that is not assigned, or `MEMB` of no gang. -/
def gangOf (c : BitVec 4) : Option Gang :=
  match c.extractLsb' 0 2 with
  | 0 => if c == 0 then some .quad else none
  | 1 => some (.core (c.extractLsb' 2 2))
  | 2 => some (.tract (c.extractLsb' 2 2))
  | _ => none

def Fmt.code : Fmt → BitVec 4
  | .rq8 => 0 | .rq4 => 1 | .e4m3 => 2 | .e5m2 => 3 | .bf16 => 4 | .f16 => 5 | .f32 => 6 | .i32 => 7 | .n8 => 8
def fmtOf : BitVec 4 → Option Fmt
  | 0 => some .rq8 | 1 => some .rq4 | 2 => some .e4m3 | 3 => some .e5m2 | 4 => some .bf16 | 5 => some .f16
  | 6 => some .f32 | 7 => some .i32 | 8 => some .n8 | _ => none
/-- The format selector of TILE (R257): 0 unchecked, else the format plus 1. -/
def fmtSel : Option Fmt → BitVec 10
  | none => 0
  | some f => f.code.setWidth 10 + 1
/-- None: a selector that is not assigned. -/
def fmtSelOf (c : BitVec 10) : Option (Option Fmt) :=
  match c.extractLsb' 0 4 with
  | 0 => some none
  | k => (fmtOf (k - 1)).map some

def Batch.code : Batch → BitVec 2
  | .b8 => 0 | .b16 => 1 | .b32 => 2 | .b64 => 3
def batchOf : BitVec 2 → Batch
  | 0 => .b8 | 1 => .b16 | 2 => .b32 | 3 => .b64

def SpotGroup.code : SpotGroup → BitVec 10
  | .hold m => (m ++ (0 : BitVec 2)).setWidth 10
  | .uniform m => 0x140 + (m ++ (0 : BitVec 2)).setWidth 10
def spotGroupOf (c : BitVec 10) : Option SpotGroup :=
  if c.extractLsb' 0 2 != 0 then none
  else if c.extractLsb' 8 2 == 0 then some (.hold (c.extractLsb' 2 6))
  else if c.extractLsb' 6 4 == 5 then some (.uniform (c.extractLsb' 2 4))
  else none

def StatGroup.code : StatGroup → BitVec 10
  | .hold m => (m ++ (0 : BitVec 2)).setWidth 10
  | .near m => 0x100 + (m ++ (0 : BitVec 2)).setWidth 10
  | .uniform m => 0x140 + (m ++ (0 : BitVec 2)).setWidth 10
def statGroupOf (c : BitVec 10) : Option StatGroup :=
  if c.extractLsb' 0 2 != 0 then none
  else if c.extractLsb' 8 2 == 0 then some (.hold (c.extractLsb' 2 6))
  else if c.extractLsb' 4 6 == 0x10 then some (.near (c.extractLsb' 2 2))
  else if c.extractLsb' 6 4 == 5 then some (.uniform (c.extractLsb' 2 4))
  else none

def SReg.code : SReg → BitVec 10
  | .laneid => 0 | .warpslot => 1 | .quad => 2 | .core => 3 | .tract => 4 | .die => 5 | .groups => 6 | .launch => 7
  | .parcel => 8 | .strandpc => 9 | .cspbase => 10 | .cspdepth => 11 | .clock => 12 | .retired => 13 | .caphbm => 14
  | .capcxl => 15 | .platphase => 16 | .spotcnt => 17 | .spotvar => 18 | .spotnrm => 19 | .faultseq => 20
def sregOf : BitVec 10 → Option SReg
  | 0 => some .laneid | 1 => some .warpslot | 2 => some .quad | 3 => some .core | 4 => some .tract | 5 => some .die
  | 6 => some .groups | 7 => some .launch | 8 => some .parcel | 9 => some .strandpc | 10 => some .cspbase
  | 11 => some .cspdepth | 12 => some .clock | 13 => some .retired | 14 => some .caphbm | 15 => some .capcxl
  | 16 => some .platphase | 17 => some .spotcnt | 18 => some .spotvar | 19 => some .spotnrm | 20 => some .faultseq
  | _ => none

/-- The closure field of the engine family (R306). -/
def cloCode : Option Opd → BitVec 10
  | none => 0x114
  | some o => o.code
/-- Outer none: `ILLEGAL_OPERAND`. -/
def cloOf (c : BitVec 10) : Option (Option Opd) :=
  if c = 0x114 then some none else (srcNoLit c 1).map some

/-! ### Families -/

abbrev Dec := Except Bad Instr
def op : Dec := .error .illegalOpcode
def rsv : Dec := .error .reservedField
def opnd : Dec := .error .illegalOperand

/-- Every one of some optional operands, or `ILLEGAL_OPERAND`. -/
def need1 {α : Type} (x : Option α) (f : α → Instr) : Dec :=
  match x with
  | some a => .ok (f a)
  | none => opnd
def need2 {α β : Type} (x : Option α) (y : Option β) (f : α → β → Instr) : Dec :=
  match x, y with
  | some a, some b => .ok (f a b)
  | _, _ => opnd
def need3 {α β γ : Type} (x : Option α) (y : Option β) (z : Option γ) (f : α → β → γ → Instr) : Dec :=
  match x, y, z with
  | some a, some b, some c => .ok (f a b c)
  | _, _, _ => opnd
def need4 {α β γ δ : Type} (x : Option α) (y : Option β) (z : Option γ) (u : Option δ) (f : α → β → γ → δ → Instr) :
    Dec :=
  match x, y, z, u with
  | some a, some b, some c, some d => .ok (f a b c d)
  | _, _, _, _ => opnd

def int2Of (fn : BitVec 6) : Option (Hdr → Width → Dst → Opd → Opd → Instr) :=
  match fn with
  | 0 => some .add
  | 1 => some .sub
  | 2 => some .mul
  | 3 => some .mulh
  | 4 => some .mulhn
  | 5 => some .div
  | 6 => some .divn
  | 7 => some .rem
  | 8 => some .remn
  | 9 => some .minS
  | 10 => some .maxS
  | 11 => some .minn
  | 12 => some .maxn
  | 13 => some .andB
  | 14 => some .orB
  | 15 => some .xorB
  | 16 => some .andn
  | 17 => some .orn
  | 18 => some .shl
  | 19 => some .shr
  | 20 => some .sar
  | 21 => some .rol
  | 22 => some .ror
  | _ => none

def int1Of (fn : BitVec 6) : Option (Hdr → Width → Dst → Opd → Instr) :=
  match fn with
  | 0 => some .mov
  | 1 => some .neg
  | 2 => some .abs
  | 3 => some .notB
  | 4 => some .popc
  | 5 => some .clz
  | 6 => some .ctz
  | 7 => some .brev
  | 8 => some .sext8
  | 9 => some .sext16
  | 10 => some .zext8
  | 11 => some .zext16
  | _ => none

/-- Shift and rotate counts are 32-bit in both widths (R95). -/
def isShift (fn : BitVec 6) : Bool := decide (18 ≤ fn.toNat)

def decInt2 (r : Raw) : Dec :=
  match int2Of r.fn, widthOf r.m with
  | some mk, some w =>
    if r.x || r.c != 0 || r.litBad [r.a, r.b] then rsv
    else need3 (r.destIf (·.ok w.regs)) (r.src r.a w.regs) (r.src r.b (if isShift r.fn then 1 else w.regs))
      (mk r.hdr w)
  | _, _ => op

def decInt3 (r : Raw) : Dec :=
  match widthOf r.m with
  | none => op
  | some w =>
    let n := w.regs
    let d := r.destIf (·.ok n)
    let three (mk : Hdr → Width → Dst → Opd → Opd → Opd → Instr) (nb nc : Nat) : Dec :=
      if r.x || r.litBad [r.a, r.b, r.c] then rsv
      else need4 d (r.src r.a n) (r.src r.b nb) (r.src r.c nc) (mk r.hdr w)
    match r.fn with
    | 0 => three .mad n n
    | 1 => three .madh n n
    | 2 => three .lea 1 1
    | 3 =>
      if r.x || r.c != 0 || r.litBad [r.a, r.b] then rsv
      else need3 d (r.src r.a n) (r.src r.b 1) (.bfx r.hdr w)
    | 4 => three .bfi n 1
    | 5 =>
      if r.x || predBad r.c || r.litBad [r.a, r.b] then rsv
      else need3 d (r.src r.a n) (r.src r.b n) (fun d a b => .sel r.hdr w d a b (predOf r.c))
    | 6 => three .add3 n n
    | _ => op

def decInt1 (r : Raw) : Dec :=
  match int1Of r.fn, widthOf r.m with
  | some mk, some w =>
    if r.x || r.b != 0 || r.c != 0 || r.litBad [r.a] then rsv
    else need2 (r.destIf (·.ok w.regs)) (r.src r.a w.regs) (mk r.hdr w)
  | _, _ => op

def decCmp (r : Raw) : Dec :=
  match cmpCondOf r.fn, widthOf r.m with
  | some cond, some w =>
    if r.x || r.nw || predBad r.dst || r.litBad [r.a, r.b] then rsv
    else
      match combineOf r.c with
      | none => rsv
      | some cb => need2 (r.src r.a w.regs) (r.src r.b w.regs) (.cmp r.hdr cond w (predOf r.dst) cb)
  | _, _ => op

def decFcmp (r : Raw) : Dec :=
  match fcmpCondOf r.fn, cmpFmtOf r.m with
  | some cond, some f =>
    if r.x || r.nw || predBad r.dst || r.litBad [r.a, r.b] then rsv
    else
      match combineOf r.c with
      | none => rsv
      | some cb => need2 (r.src r.a 1) (r.src r.b 1) (.fcmp r.hdr cond f (predOf r.dst) cb)
  | _, _ => op

def decFp2 (r : Raw) : Dec :=
  let go (bad : Bool) (mk : Dst → Opd → Opd → Instr) : Dec :=
    if bad || r.c != 0 || r.litBad [r.a, r.b] then rsv
    else need3 (r.destIf (·.ok 1)) (r.src r.a 1) (r.src r.b 1) mk
  let rm := rndOf r.m
  let hf := halfOf r.x
  let m := r.m != 0
  match r.fn with
  | 0 => go r.x (.fadd r.hdr rm)
  | 1 => go r.x (.fsub r.hdr rm)
  | 2 => go r.x (.fmul r.hdr rm)
  | 3 => go (r.x || m) (.fmin r.hdr)
  | 4 => go (r.x || m) (.fmax r.hdr)
  | 5 => go (r.x || m) (.fminp r.hdr)
  | 6 => go (r.x || m) (.fmaxp r.hdr)
  | 7 => go r.x (.fscale r.hdr rm)
  | 8 => go false (.hadd2 r.hdr hf rm)
  | 9 => go false (.hsub2 r.hdr hf rm)
  | 10 => go false (.hmul2 r.hdr hf rm)
  | 11 => go m (.hmin2 r.hdr hf)
  | 12 => go m (.hmax2 r.hdr hf)
  | _ => op

def decFp3 (r : Raw) : Dec :=
  let go (bad : Bool) (mk : Dst → Opd → Opd → Opd → Instr) : Dec :=
    if bad || r.litBad [r.a, r.b, r.c] then rsv
    else need4 (r.destIf (·.ok 1)) (r.src r.a 1) (r.src r.b 1) (r.src r.c 1) mk
  let rm := rndOf r.m
  match r.fn with
  | 0 => go r.x (.ffma r.hdr rm)
  | 1 => go r.x (.ffms r.hdr rm)
  | 2 => go r.x (.fnma r.hdr rm)
  | 3 => go false (.hfma2 r.hdr (halfOf r.x) rm)
  | _ => op

def decFp1 (r : Raw) : Dec :=
  let go (bad : Bool) (mk : Dst → Opd → Instr) : Dec :=
    if bad || r.x || r.b != 0 || r.c != 0 || r.litBad [r.a] then rsv
    else need2 (r.destIf (·.ok 1)) (r.src r.a 1) mk
  let m := r.m != 0
  match r.fn with
  | 0 => go m (.fabs r.hdr)
  | 1 => go m (.fneg r.hdr)
  | 2 => go false (.frnd r.hdr (rndOf r.m))
  | 3 => go m (.fclass r.hdr)
  | 4 => go m (.fsat r.hdr)
  | _ => op

def decCvt (r : Raw) : Dec :=
  match cvtPairOf r.fn with
  | none => op
  | some p =>
    if r.x || r.b != 0 || r.c != 0 || (p.exact && r.m != 0) || r.litBad [r.a] then rsv
    else need2 (r.destIf (·.ok p.dstRegs)) (r.src r.a p.srcRegs) (.cvt r.hdr p (rndOf r.m))

def sfuOf (fn : BitVec 6) : Option (Hdr → Dst → Opd → Instr) :=
  match fn with
  | 0 => some .rcp
  | 1 => some .rsq
  | 2 => some .sqrt
  | 3 => some .exp2
  | 4 => some .log2
  | 5 => some .sinpi
  | 6 => some .cospi
  | 7 => some .tanh
  | 8 => some .sigm
  | _ => none

def decSfu (r : Raw) : Dec :=
  if r.fn = 9 then
    if r.x || r.m != 0 || r.c != 0 || r.litBad [r.a, r.b] then rsv
    else need3 (r.destIf (·.ok 1)) (r.src r.a 1) (r.src r.b 1) (.divf r.hdr)
  else
    match sfuOf r.fn with
    | none => op
    | some mk =>
      if r.x || r.m != 0 || r.b != 0 || r.c != 0 || r.litBad [r.a] then rsv
      else need2 (r.destIf (·.ok 1)) (r.src r.a 1) (mk r.hdr)

def decBranch (r : Raw) : Dec :=
  let top := r.x || r.nw || r.dst != 0
  let direct (mk : Word → Instr) : Dec := if top || r.lit != 0 then rsv else .ok (mk r.word1)
  let bare (i : Instr) : Dec := if top || r.word1 != 0 || r.lit != 0 then rsv else .ok i
  let one (n : Nat) (mk : Opd → Instr) : Dec :=
    if top || r.b != 0 || r.c != 0 || r.m != 0 || r.litBad [r.a] then rsv else need1 (r.src r.a n) mk
  match r.fn with
  | 0 => direct (.bra r.hdr)
  | 1 => one 2 (.brx r.hdr)
  | 2 => direct (.call r.hdr)
  | 3 => one 2 (.callx r.hdr)
  | 4 => bare (.ret r.hdr)
  | 5 => bare (.exit r.hdr)
  | 6 => one 1 (.trap r.hdr)
  | 7 => bare (.brk r.hdr)
  | _ => op

def decRejoin (r : Raw) : Dec :=
  let top := r.x || r.nw || r.m != 0 || r.b != 0 || r.c != 0 || r.lit != 0
  let inDst (mk : BitVec 4 → Instr) : Dec :=
    if top || maskBad r.dst || r.a != 0 then rsv else .ok (mk (maskIdx r.dst))
  let inSrc (mk : BitVec 4 → Instr) : Dec :=
    if top || maskBad r.a || r.dst != 0 then rsv else .ok (mk (maskIdx r.a))
  match r.fn with
  | 0 => inDst (.jset r.hdr)
  | 1 => inDst (.jadd r.hdr)
  | 2 => inDst (.jclr r.hdr)
  | 3 => inSrc (.waitj r.hdr)
  | 4 => if top || predBad r.dst || r.a != 0 then rsv else .ok (.elect r.hdr (predOf r.dst))
  | 5 => inSrc (.sleepj r.hdr)
  | 6 => inDst (.wakej r.hdr)
  | _ => op

def decStrand (r : Raw) : Dec :=
  if r.fn != 0 || !r.long then op
  else if r.x || r.nw || r.gneg || r.gidx != 7 || r.dst.extractLsb' 2 8 != 0 then rsv
  else .ok (.strand (r.dst.extractLsb' 0 2) (r.lit ++ r.word1))

def decXlane (r : Raw) : Dec :=
  let w := widthBit r.x
  match r.fn with
  | 0 =>
    if r.c != 0 || r.litBad [r.a, r.b] then rsv
    else need3 (r.destIf (·.ok w.regs)) (r.src r.a w.regs) (r.src r.b 1) (.shfl r.hdr (shflOf r.m) w)
  | 1 =>
    if r.m = 0 then
      if (if r.x then predBad r.c else r.c != 0) || r.litBad [r.a, r.b] then rsv
      else need3 (r.destIf (·.okPush false)) (r.src r.a 1) (r.src r.b 1)
        (fun d a b => .lpush r.hdr d a b (if r.x then some (predOf r.c) else none))
    else if r.m = 1 then
      if r.x || r.litBad [r.a, r.b, r.c] then rsv
      else need4 (r.destIf (·.okPush true)) (r.src r.a 1) (r.src r.b 1) (r.src r.c 1) (.lpushWarp r.hdr)
    else op
  | 2 =>
    let rest := r.b != 0 || r.c != 0
    match r.m with
    | 0 => if rest || r.nw || predBad r.a || predBad r.dst || r.lit != 0 then rsv
           else .ok (.voteAny r.hdr (predOf r.dst) r.x (predOf r.a))
    | 1 => if rest || r.nw || predBad r.a || predBad r.dst || r.lit != 0 then rsv
           else .ok (.voteAll r.hdr (predOf r.dst) r.x (predOf r.a))
    | 2 => if rest || predBad r.a || r.lit != 0 then rsv
           else need1 (r.destIf (·.ok 1)) (fun d => .voteBallot r.hdr d r.x (predOf r.a))
    | 3 => if rest || r.x || r.nw || predBad r.dst || r.litBad [r.a] then rsv
           else need1 (r.src r.a 1) (.voteEq r.hdr (predOf r.dst))
  | 3 =>
    match redOf (r.c.extractLsb' 0 4) with
    | none => op
    | some o =>
      if o.isFp then
        if r.x || r.m != 0 || r.b != 0 || maskBad r.c || r.litBad [r.a] then rsv
        else need2 (r.destIf (·.ok 1)) (r.src r.a 1) (.redx r.hdr o .w32)
      else
        match widthOf r.m with
        | none => op
        | some w =>
          if r.x || r.b != 0 || maskBad r.c || r.litBad [r.a] then rsv
          else need2 (r.destIf (·.ok w.regs)) (r.src r.a w.regs) (.redx r.hdr o w)
  | 4 =>
    match redOf (r.c.extractLsb' 0 4) with
    | none => op
    | some o =>
      if o.isFp then
        if r.m != 0 || r.b != 0 || maskBad r.c || r.litBad [r.a] then rsv
        else need2 (r.destIf (·.ok 1)) (r.src r.a 1) (.scanx r.hdr r.x o .w32)
      else
        match widthOf r.m with
        | none => op
        | some w =>
          if r.b != 0 || maskBad r.c || r.litBad [r.a] then rsv
          else need2 (r.destIf (·.ok w.regs)) (r.src r.a w.regs) (.scanx r.hdr r.x o w)
  | 5 =>
    if r.m != 0 || r.b != 0 || r.c != 0 || r.litBad [r.a] then rsv
    else need2 (r.destIf (·.ok 1)) (r.src r.a w.regs) (.matchx r.hdr w)
  | _ => op

def decMem (r : Raw) : Dec :=
  let load (core : Bool) (k : MemSz → Dec) : Dec :=
    match memSzOf r.x r.m with
    | none => op
    | some sz => if ordIllegal r.c then op else if ordReserved r.c core then rsv else k sz
  let store (core : Bool) (k : StSz → Dec) : Dec :=
    match stSzOf r.x r.m with
    | none => op
    | some sz => if ordIllegal r.dst then op else if ordReserved r.dst core || r.nw then rsv else k sz
  match r.fn with
  | 0 => load false (fun sz => if r.litBad [r.a, r.b] then rsv
      else need3 (r.destIf (·.okData sz.regs)) (recOf r.a) (r.src r.b 1) (.ld r.hdr sz (ordOf r.c)))
  | 1 => store false (fun sz => if r.litBad [r.a, r.b, r.c] then rsv
      else need3 (recOf r.a) (r.src r.b 1) (r.src r.c sz.regs) (.st r.hdr sz (ordOf r.dst)))
  | 2 => load false (fun sz => if r.litBad [r.a, r.b] then rsv
      else need3 (r.destIf (·.okData sz.regs)) (r.src r.a 1) (r.src r.b 1) (.lds r.hdr sz (ordOf r.c)))
  | 3 => store false (fun sz => if r.litBad [r.a, r.b, r.c] then rsv
      else need3 (r.src r.a 1) (r.src r.b 1) (r.src r.c sz.regs) (.sts r.hdr sz (ordOf r.dst)))
  | 4 => load true (fun sz => if r.litBad [r.a, r.b] then rsv
      else need3 (r.destIf (·.okData sz.regs)) (r.src r.a 1) (r.src r.b 1)
        (.ldx r.hdr sz (ordOf r.c) (r.c.extractLsb' 4 2)))
  | 5 => store true (fun sz => if r.litBad [r.a, r.b, r.c] then rsv
      else need3 (r.src r.a 1) (r.src r.b 1) (r.src r.c sz.regs)
        (.stx r.hdr sz (ordOf r.dst) (r.dst.extractLsb' 4 2)))
  | 6 =>
    if !r.x then op
    else
      match widthOf r.m with
      | none => op
      | some w =>
        if ordIllegal r.c then op
        else if ordReserved r.c false || r.litBad [r.a, r.b] then rsv
        else need3 (r.destIf (·.okUni w.regs)) (recOf r.a) (r.src r.b 1) (.ldw r.hdr w (ordOf r.c))
  | _ => op

/-- The operand of an atomic (R195). -/
def atomData (o : AtomOp) (w : Width) (c : BitVec 10) : Option Opd :=
  match Opd.ofCode c with
  | some x => if x.okAtom o w then some x else none
  | none => none

def decAtomic (r : Raw) : Dec :=
  match r.long, atomOpOf r.fn, scopeOf (r.lit.extractLsb' 0 3) with
  | true, some o, some sc =>
    let w := widthBit (bitBool (r.lit.extractLsb' 7 1))
    let ord := atomOrdOf (r.lit.extractLsb' 5 2)
    if o == .fadd && w == .w64 then op
    else if r.m != 0 || r.lit.extractLsb' 8 24 != 0 || r.lit.extractLsb' 3 2 != 0 then rsv
    else if r.x then
      need4 (r.destIf (·.okData w.regs)) (srcNoLit r.a 1) (srcNoLit r.b 1) (atomData o w r.c)
        (.atoms r.hdr.guard o w ord sc)
    else
      need4 (r.destIf (·.okData w.regs)) (recOf r.a) (srcNoLit r.b 1) (atomData o w r.c)
        (.atom r.hdr.guard o w ord sc)
  | _, _, _ => op

def scopeFn (fn : BitVec 6) : Option Scope := if fn.toNat < 7 then scopeOf (fn.setWidth 3) else none

def decFence (r : Raw) : Dec :=
  match scopeFn r.fn, fenceOf r.m with
  | some sc, some k =>
    if r.x || r.nw || r.dst != 0 || r.a != 0 || r.b != 0 || r.c != 0 || r.lit != 0 then rsv
    else .ok (.fence r.hdr k sc)
  | _, _ => op

def decTag (r : Raw) : Dec :=
  let top := r.x || r.m != 0
  match r.fn with
  | 0 =>
    if top || r.b != 0 || r.c != 0 || r.litBad [r.a] then rsv
    else need2 (r.destIf (·.ok 1)) (r.src r.a 1) (.tagq r.hdr)
  | 1 =>
    if top || r.dst != 0 || r.nw || r.litBad [r.a, r.b, r.c] then rsv
    else need3 (r.src r.a 1) (r.src r.b 1) (r.src r.c 1) (.tagi r.hdr)
  | 2 =>
    if top || r.dst != 0 || r.nw || r.b != 0 || r.c != 0 || r.litBad [r.a] then rsv
    else need1 (r.src r.a 1) (.tagx r.hdr)
  | _ => op

def decEngine (r : Raw) : Dec :=
  match r.fn with
  | 0 =>
    let out := bitBool (r.m.extractLsb' 1 1)
    if r.m.extractLsb' 0 1 == 1 then
      if !r.long then op
      else if r.nw then rsv
      else need4 (cloOf r.dst) (r.src r.a 1) (r.src r.b 1) (DReg.ofCode r.c)
        (.cpy r.hdr out (some (r.lit.extractLsb' 16 16, r.lit.extractLsb' 0 16)) r.x)
    else if r.nw || r.litBad [r.dst, r.a, r.b, r.c] then rsv
    else need4 (cloOf r.dst) (r.src r.a 1) (r.src r.b 1) (DReg.ofCode r.c) (.cpy r.hdr out none r.x)
  | 1 =>
    if r.nw || r.m != 0 || r.litBad [r.dst, r.a, r.b, r.c] then rsv
    else need4 (cloOf r.dst) (r.src r.a 1) (r.src r.b 1) (r.src r.c 1) (.gath r.hdr r.x)
  | 2 =>
    if r.nw || r.m != 0 || r.c != 0 || r.litBad [r.dst, r.a, r.b] then rsv
    else need3 (cloOf r.dst) (r.src r.a 1) (r.src r.b 1) (.coll r.hdr r.x)
  | _ => op

def decClosure (r : Raw) : Dec :=
  let top := r.nw || r.m != 0
  match r.fn with
  | 0 =>
    if top || r.dst != 0 || r.litBad [r.a, r.b, r.c] then rsv
    else need3 (r.src r.a 1) (r.src r.b 1) (r.src r.c 1) (.binit r.hdr r.x)
  | 1 =>
    if top || r.dst != 0 || r.litBad [r.a, r.b, r.c] then rsv
    else need3 (r.src r.a 1) (r.src r.b 1) (r.src r.c 1) (.bexp r.hdr r.x)
  | 2 =>
    if top || r.dst != 0 || r.c != 0 || r.litBad [r.a, r.b] then rsv
    else need2 (r.src r.a 1) (r.src r.b 1) (.barv r.hdr r.x)
  | 3 =>
    if top || r.dst != 0 || r.litBad [r.a, r.b, r.c] then rsv
    else need3 (r.src r.a 1) (r.src r.b 1) (r.src r.c 1) (.bwait r.hdr r.x)
  | 4 =>
    if top || predBad r.dst || r.litBad [r.a, r.b, r.c] then rsv
    else need3 (r.src r.a 1) (r.src r.b 1) (r.src r.c 1) (.btest r.hdr r.x (predOf r.dst))
  | 5 =>
    if top || r.x || r.dst != 0 || r.a != 0 || r.b != 0 || r.c != 0 || r.lit != 0 then rsv else .ok (.trig r.hdr)
  | _ => op

def decMatrix (r : Raw) : Dec :=
  match matPairOf (r.fn.extractLsb' 2 4), dimOf (r.fn.extractLsb' 0 2), dimOf r.m with
  | some p, some m, some n =>
    let keep := bitBool (r.dst.extractLsb' 4 1)
    if r.dst.extractLsb' 0 2 == 3 then op
    else if r.nw || r.dst.extractLsb' 5 5 != 0 || (keep && !p.isRq) then rsv
    else
      match gangOf (r.dst.extractLsb' 0 4) with
      | none => rsv
      | some g =>
        if r.x then
          if r.litBad [r.a, r.b, r.c] then rsv
          else need3 (r.src r.a 1) (r.src r.b 1) (r.src r.c 1) (.mmag r.hdr p m n keep g)
        else if r.c != 0 || r.litBad [r.a, r.b] then rsv
        else need2 (r.src r.a 1) (r.src r.b 1) (.mma r.hdr p m n keep g)
  | _, _, _ => op

def decTile (r : Raw) : Dec :=
  let top := r.nw || r.dst != 0
  match r.fn with
  | 0 =>
    if top || r.x || r.m != 0 || r.a != 0 || r.b != 0 || r.c != 0 || r.lit != 0 then rsv else .ok (.acz r.hdr)
  | 1 =>
    match fmtSelOf r.c with
    | none => op
    | some f =>
      if r.x then
        if top || r.m != 0 || maskBad r.c || r.litBad [r.a, r.b] then rsv
        else need2 (r.src r.a 1) (r.src r.b 1) (fun a b => .acld r.hdr (some b) f a)
      else if top || r.m != 0 || r.b != 0 || maskBad r.c || r.litBad [r.a] then rsv
      else need1 (r.src r.a 1) (.acld r.hdr none f)
  | 2 =>
    match fmtSelOf r.c with
    | none => op
    | some f =>
      if top || r.b != 0 || (r.x && r.m != 0) || maskBad r.c || r.litBad [r.a] then rsv
      else need1 (r.src r.a 1) (.acst r.hdr r.x (rndOf r.m) f)
  | 3 =>
    if top || r.m != 0 || r.c != 0 || r.litBad [r.a, r.b] then rsv
    else need2 (r.src r.a 1) (r.src r.b 1) (.had r.hdr r.x)
  | 4 =>
    match fmtSelOf r.c, widthOf r.m with
    | some f, some w =>
      if top || r.b != 0 || maskBad r.c || r.litBad [r.a] then rsv
      else need1 (r.src r.a 1) (.qnt r.hdr r.x w.bit f)
    | _, _ => op
  | _ => op

def decSpot (r : Raw) : Dec :=
  match r.fn with
  | 0 =>
    if r.dst != 0 || r.nw || r.m != 0 || r.c != 0 || r.litBad [r.a, r.b] then rsv
    else need2 (r.src r.a 1) (r.src r.b 1) (.snorm r.hdr r.x)
  | 1 =>
    if !r.long then op
    else if r.x || r.nw || r.dst != 0 || r.m != 0 || r.c != 0 || r.lit.extractLsb' 23 9 != 0 then rsv
    else need2 (srcNoLit r.a 1) (srcNoLit r.b 1) (.salias r.hdr.guard (r.lit.extractLsb' 0 23))
  | 2 =>
    match r.long, dimOf (r.dst.extractLsb' 6 2), dimOf (r.dst.extractLsb' 8 2) with
    | true, some m, some n =>
      if r.dst.extractLsb' 0 2 == 3 then op
      else if r.x || r.nw || r.m != 0 || r.lit.extractLsb' 23 9 != 0 then rsv
      else
        match gangOf (r.dst.extractLsb' 0 4) with
        | none => rsv
        | some g =>
          need3 (srcNoLit r.a 1) (srcNoLit r.b 1) (spotGroupOf r.c)
            (.spot r.hdr.guard (r.lit.extractLsb' 0 23) m n (batchOf (r.dst.extractLsb' 4 2)) g)
    | _, _, _ => op
  | 3 =>
    if r.x || r.nw || r.m != 0 || r.a != 0 || r.b != 0 || r.c != 0 || r.lit != 0 then rsv
    else need1 (statGroupOf r.dst) (.sstat r.hdr)
  | _ => op

def decSys (r : Raw) : Dec :=
  let d0 := r.nw || r.dst != 0
  let bare (i : Instr) : Dec :=
    if d0 || r.x || r.a != 0 || r.b != 0 || r.c != 0 || r.lit != 0 then rsv else .ok i
  let ab (mk : Opd → Opd → Instr) : Dec :=
    if d0 || r.x || r.c != 0 || r.litBad [r.a, r.b] then rsv else need2 (r.src r.a 1) (r.src r.b 1) mk
  let abc (mk : Opd → Opd → Opd → Instr) : Dec :=
    if d0 || r.x || r.litBad [r.a, r.b, r.c] then rsv
    else need3 (r.src r.a 2) (r.src r.b 1) (r.src r.c 1) mk
  match r.fn with
  | 0 =>
    match sregOf r.a with
    | none => op
    | some k =>
      if r.x || r.m != 0 || r.b != 0 || r.c != 0 || r.lit != 0 then rsv
      else need1 (r.destIf (·.ok 2)) (.srr r.hdr k)
  | 1 =>
    match sregOf r.a with
    | none => op
    | some k =>
      if d0 || r.x || r.m != 0 || r.c != 0 || r.litBad [r.b] then rsv else need1 (r.src r.b 2) (.srw r.hdr k)
  | 2 =>
    match r.m with
    | 0 => bare (.cede r.hdr)
    | 1 => bare (.cedeHold r.hdr)
    | 2 => bare (.cedeOpen r.hdr)
    | _ => op
  | 3 =>
    match r.m with
    | 0 => ab (.saveHold r.hdr)
    | 1 => ab (.saveScr r.hdr)
    | 2 => bare (.saveAcc r.hdr)
    | 3 => bare (.saveTag r.hdr)
  | 4 =>
    match r.m with
    | 0 => bare (.trapretRestart r.hdr)
    | 1 => bare (.trapretSkip r.hdr)
    | _ => op
  | 5 =>
    match r.m with
    | 0 =>
      if d0 || r.x || r.a != 0 || r.b != 0 || r.litBad [r.c] then rsv else need1 (r.src r.c 1) (.watchOff r.hdr)
    | 1 => abc (.watchW r.hdr)
    | 2 => abc (.watchRw r.hdr)
    | _ => op
  | 6 =>
    match r.m with
    | 0 => abc (.profStall r.hdr)
    | 1 => bare (.profStop r.hdr)
    | 2 => abc (.profMem r.hdr)
    | _ => op
  | 7 => if r.m != 0 then rsv else bare (.nop r.hdr)
  | _ => op

def decHandle (r : Raw) : Dec :=
  let top := r.x || r.m != 0 || r.c != 0
  match r.fn with
  | 0 =>
    if top || r.litBad [r.a, r.b] then rsv
    else need3 (r.destIf (·.ok 1)) (r.src r.a 1) (r.src r.b 1) (.thset r.hdr)
  | 1 =>
    if top || r.dst != 0 || r.nw || r.b != 0 || r.litBad [r.a] then rsv
    else need1 (r.src r.a 1) (.thdrop r.hdr)
  | _ => op

/-- The major opcode map (R61). -/
def decodeRaw (r : Raw) : Dec :=
  match r.maj with
  | 0x01 => decInt2 r
  | 0x02 => decInt3 r
  | 0x03 => decInt1 r
  | 0x04 => decCmp r
  | 0x05 => decFp2 r
  | 0x06 => decFp3 r
  | 0x07 => decFp1 r
  | 0x08 => decFcmp r
  | 0x09 => decCvt r
  | 0x0A => decSfu r
  | 0x10 => decBranch r
  | 0x11 => decRejoin r
  | 0x12 => decStrand r
  | 0x13 => decXlane r
  | 0x20 => decMem r
  | 0x21 => decAtomic r
  | 0x22 => decFence r
  | 0x23 => decTag r
  | 0x28 => decEngine r
  | 0x29 => decClosure r
  | 0x30 => decMatrix r
  | 0x31 => decTile r
  | 0x32 => decSpot r
  | 0x38 => decSys r
  | 0x39 => decHandle r
  | _ => op

/-! ### Compact words (R67 to R70) -/

/-- An OS8 source (R68); `_` and the reserved special are none. -/
def Opd8.ofCode (c : BitVec 8) : Option Opd8 :=
  let n := c.toNat
  if n < 0x40 then some (.hold (c.setWidth 6))
  else if n < 0x50 then some (.near (c.setWidth 4))
  else if n < 0x54 then some (.latch (c.setWidth 2))
  else if n < 0x60 then (Special.ofCode (n + 0xC0)).map .special
  else if n < 0x80 then some (.uniform (c.setWidth 5))
  else some (.imm (c.setWidth 7))

def Opd8.code : Opd8 → BitVec 8
  | .hold i => i.setWidth 8
  | .near i => 0x40 + i.setWidth 8
  | .latch i => 0x50 + i.setWidth 8
  | .special v => BitVec.ofNat 8 (v.code - 0xC0)
  | .uniform i => 0x60 + i.setWidth 8
  | .imm v => 0x80 + v.setWidth 8

def Dst8.ofCode (c : BitVec 8) : Option Dst8 :=
  let n := c.toNat
  if n < 0x40 then some (.hold (c.setWidth 6))
  else if n < 0x50 then some (.near (c.setWidth 4))
  else if n = 0x54 then some .none
  else if n < 0x60 then Option.none
  else if n < 0x80 then some (.uniform (c.setWidth 5))
  else Option.none

def Dst8.code : Dst8 → BitVec 8
  | .none => 0x54
  | .hold i => i.setWidth 8
  | .near i => 0x40 + i.setWidth 8
  | .uniform i => 0x60 + i.setWidth 8

def src8 (c : BitVec 8) (n : Nat) : Option Opd8 :=
  match Opd8.ofCode c with
  | some o => if o.ok n then some o else none
  | none => none

def dst8 (c : BitVec 8) (n : Nat) : Option Dst8 :=
  match Dst8.ofCode c with
  | some o => if o.ok n then some o else none
  | none => none

/-- Two-source compact opcodes, with the registers of an operand (R69). -/
def compact2 (cop : BitVec 6) : Option (Nat × (Dst8 → Opd8 → Opd8 → Instr)) :=
  match cop with
  | 1 => some (1, .addC)
  | 2 => some (1, .subC)
  | 3 => some (1, .mulC)
  | 4 => some (1, .mulhC)
  | 5 => some (1, .mulhnC)
  | 6 => some (1, .minC)
  | 7 => some (1, .maxC)
  | 8 => some (1, .minnC)
  | 9 => some (1, .maxnC)
  | 10 => some (1, .andC)
  | 11 => some (1, .orC)
  | 12 => some (1, .xorC)
  | 13 => some (1, .andnC)
  | 14 => some (1, .shlC)
  | 15 => some (1, .shrC)
  | 16 => some (1, .sarC)
  | 17 => some (1, .rolC)
  | 18 => some (1, .rorC)
  | 19 => some (2, .add64C)
  | 20 => some (2, .sub64C)
  | 32 => some (1, .faddC)
  | 33 => some (1, .fsubC)
  | 34 => some (1, .fmulC)
  | 35 => some (1, .fminC)
  | 36 => some (1, .fmaxC)
  | 37 => some (1, .fminpC)
  | 38 => some (1, .fmaxpC)
  | 39 => some (1, .fscaleC)
  | 40 => some (1, .hadd2F16C)
  | 41 => some (1, .hsub2F16C)
  | 42 => some (1, .hmul2F16C)
  | 43 => some (1, .hadd2Bf16C)
  | 44 => some (1, .hsub2Bf16C)
  | 45 => some (1, .hmul2Bf16C)
  | 55 => some (1, .divfC)
  | 60 => some (1, .shflIdxC)
  | 61 => some (1, .shflXorC)
  | _ => none

/-- One-source compact opcodes (R69). -/
def compact1 (cop : BitVec 6) : Option (Nat × (Dst8 → Opd8 → Instr)) :=
  match cop with
  | 21 => some (1, .movC)
  | 22 => some (2, .mov64C)
  | 23 => some (1, .negC)
  | 24 => some (1, .notC)
  | 25 => some (1, .popcC)
  | 26 => some (1, .clzC)
  | 27 => some (1, .ctzC)
  | 28 => some (1, .sext8C)
  | 29 => some (1, .sext16C)
  | 30 => some (1, .zext8C)
  | 31 => some (1, .zext16C)
  | 46 => some (1, .fabsC)
  | 47 => some (1, .fnegC)
  | 48 => some (1, .rcpC)
  | 49 => some (1, .rsqC)
  | 50 => some (1, .sqrtC)
  | 51 => some (1, .exp2C)
  | 52 => some (1, .log2C)
  | 53 => some (1, .tanhC)
  | 54 => some (1, .sigmC)
  | 56 => some (1, .cvtF32I32C)
  | 57 => some (1, .cvtI32F32C)
  | 58 => some (1, .cvtF32F16C)
  | 59 => some (1, .cvtF16F32C)
  | _ => none

/-- A compact word (R67, R69, R70). -/
def decodeCompact (w : Word) : Dec :=
  let cop : BitVec 6 := w.extractLsb' 2 6
  let cd : BitVec 8 := w.extractLsb' 8 8
  let ca : BitVec 8 := w.extractLsb' 16 8
  let cb : BitVec 8 := w.extractLsb' 24 8
  if cop = 0x3E then .ok (.braC (w.extractLsb' 8 24))
  else if cop = 0x3F then (if w.extractLsb' 8 24 != 0 then rsv else .ok .exitC)
  else
    match compact2 cop with
    | some (n, mk) => need3 (dst8 cd n) (src8 ca n) (src8 cb n) mk
    | none =>
      match compact1 cop with
      | some (n, mk) => if cb != 0 then rsv else need2 (dst8 cd n) (src8 ca n) mk
      | none => op

def compactWord (cop : BitVec 6) (d : Dst8) (a b : BitVec 8) : Word := b ++ a ++ d.code ++ cop ++ (0 : BitVec 2)

/-! ### Words (R47) -/

/-- Length in words of the instruction whose first word is given; none is the unassigned code. -/
def lengthOf (w0 : Word) : Option Nat :=
  match w0.extractLsb' 0 2 with
  | 0 => some 1
  | 2 => some 2
  | 3 => some 3
  | _ => none

/-- Decode from the words at an address: the first decides the length (R47, R48). Words after the instruction are
not looked at; a missing word counts as zero. -/
def decode (ws : List Word) : Dec :=
  let w0 := ws.getD 0 0
  match lengthOf w0 with
  | none => .error .illegalLength
  | some 1 => decodeCompact w0
  | some 2 => decodeRaw (Raw.of w0 (ws.getD 1 0) 0)
  | some _ => decodeRaw (Raw.of w0 (ws.getD 1 0) (ws.getD 2 0))

/-! ### The encoder -/

/-- A form with its fields. -/
def Hdr.raw (h : Hdr) (maj : BitVec 8) (fn : BitVec 6) (x : Bool) (m : BitVec 2) (nw : Bool)
    (dst a b c : BitVec 10) : Raw :=
  { x := x, nw := nw, gneg := h.guard.neg, gidx := h.guard.idx, dst := dst, fn := fn, maj := maj, long := h.long,
    m := m, c := c, b := b, a := a, lit := h.lit }

/-- With a destination. -/
def Hdr.rawD (h : Hdr) (maj : BitVec 8) (fn : BitVec 6) (x : Bool) (m : BitVec 2) (d : Dst) (a b c : BitVec 10) :
    Raw := h.raw maj fn x m d.nwBit d.code a b c

/-- The header of a form that is always 96 bits long. -/
def Guard.long (g : Guard) (lit : Word) : Hdr := { guard := g, long := true, lit := lit }

/-- A branch with its offset in word 1. -/
def Hdr.rawOff (h : Hdr) (fn : BitVec 6) (off : Word) : Raw :=
  h.raw 0x10 fn false (off.extractLsb' 30 2) false 0 (off.extractLsb' 0 10) (off.extractLsb' 10 10)
    (off.extractLsb' 20 10)

/-- The fields of an instruction that has a 64-bit or 96-bit form. -/
def Instr.raw : Instr → Option Raw
  | .add h w d a b => some (h.rawD 1 0 false w.code d a.code b.code 0)
  | .sub h w d a b => some (h.rawD 1 1 false w.code d a.code b.code 0)
  | .mul h w d a b => some (h.rawD 1 2 false w.code d a.code b.code 0)
  | .mulh h w d a b => some (h.rawD 1 3 false w.code d a.code b.code 0)
  | .mulhn h w d a b => some (h.rawD 1 4 false w.code d a.code b.code 0)
  | .div h w d a b => some (h.rawD 1 5 false w.code d a.code b.code 0)
  | .divn h w d a b => some (h.rawD 1 6 false w.code d a.code b.code 0)
  | .rem h w d a b => some (h.rawD 1 7 false w.code d a.code b.code 0)
  | .remn h w d a b => some (h.rawD 1 8 false w.code d a.code b.code 0)
  | .minS h w d a b => some (h.rawD 1 9 false w.code d a.code b.code 0)
  | .maxS h w d a b => some (h.rawD 1 10 false w.code d a.code b.code 0)
  | .minn h w d a b => some (h.rawD 1 11 false w.code d a.code b.code 0)
  | .maxn h w d a b => some (h.rawD 1 12 false w.code d a.code b.code 0)
  | .andB h w d a b => some (h.rawD 1 13 false w.code d a.code b.code 0)
  | .orB h w d a b => some (h.rawD 1 14 false w.code d a.code b.code 0)
  | .xorB h w d a b => some (h.rawD 1 15 false w.code d a.code b.code 0)
  | .andn h w d a b => some (h.rawD 1 16 false w.code d a.code b.code 0)
  | .orn h w d a b => some (h.rawD 1 17 false w.code d a.code b.code 0)
  | .shl h w d a b => some (h.rawD 1 18 false w.code d a.code b.code 0)
  | .shr h w d a b => some (h.rawD 1 19 false w.code d a.code b.code 0)
  | .sar h w d a b => some (h.rawD 1 20 false w.code d a.code b.code 0)
  | .rol h w d a b => some (h.rawD 1 21 false w.code d a.code b.code 0)
  | .ror h w d a b => some (h.rawD 1 22 false w.code d a.code b.code 0)
  | .mad h w d a b c => some (h.rawD 2 0 false w.code d a.code b.code c.code)
  | .madh h w d a b c => some (h.rawD 2 1 false w.code d a.code b.code c.code)
  | .lea h w d a b c => some (h.rawD 2 2 false w.code d a.code b.code c.code)
  | .bfx h w d a b => some (h.rawD 2 3 false w.code d a.code b.code 0)
  | .bfi h w d a b c => some (h.rawD 2 4 false w.code d a.code b.code c.code)
  | .sel h w d a b p => some (h.rawD 2 5 false w.code d a.code b.code (predCode p))
  | .add3 h w d a b c => some (h.rawD 2 6 false w.code d a.code b.code c.code)
  | .mov h w d a => some (h.rawD 3 0 false w.code d a.code 0 0)
  | .neg h w d a => some (h.rawD 3 1 false w.code d a.code 0 0)
  | .abs h w d a => some (h.rawD 3 2 false w.code d a.code 0 0)
  | .notB h w d a => some (h.rawD 3 3 false w.code d a.code 0 0)
  | .popc h w d a => some (h.rawD 3 4 false w.code d a.code 0 0)
  | .clz h w d a => some (h.rawD 3 5 false w.code d a.code 0 0)
  | .ctz h w d a => some (h.rawD 3 6 false w.code d a.code 0 0)
  | .brev h w d a => some (h.rawD 3 7 false w.code d a.code 0 0)
  | .sext8 h w d a => some (h.rawD 3 8 false w.code d a.code 0 0)
  | .sext16 h w d a => some (h.rawD 3 9 false w.code d a.code 0 0)
  | .zext8 h w d a => some (h.rawD 3 10 false w.code d a.code 0 0)
  | .zext16 h w d a => some (h.rawD 3 11 false w.code d a.code 0 0)
  | .cmp h cond w p cb a b => some (h.raw 4 cond.code false w.code false (predCode p) a.code b.code cb.code)
  | .fadd h rm d a b => some (h.rawD 5 0 false rm.code d a.code b.code 0)
  | .fsub h rm d a b => some (h.rawD 5 1 false rm.code d a.code b.code 0)
  | .fmul h rm d a b => some (h.rawD 5 2 false rm.code d a.code b.code 0)
  | .fmin h d a b => some (h.rawD 5 3 false 0 d a.code b.code 0)
  | .fmax h d a b => some (h.rawD 5 4 false 0 d a.code b.code 0)
  | .fminp h d a b => some (h.rawD 5 5 false 0 d a.code b.code 0)
  | .fmaxp h d a b => some (h.rawD 5 6 false 0 d a.code b.code 0)
  | .fscale h rm d a b => some (h.rawD 5 7 false rm.code d a.code b.code 0)
  | .hadd2 h hf rm d a b => some (h.rawD 5 8 hf.bit rm.code d a.code b.code 0)
  | .hsub2 h hf rm d a b => some (h.rawD 5 9 hf.bit rm.code d a.code b.code 0)
  | .hmul2 h hf rm d a b => some (h.rawD 5 10 hf.bit rm.code d a.code b.code 0)
  | .hmin2 h hf d a b => some (h.rawD 5 11 hf.bit 0 d a.code b.code 0)
  | .hmax2 h hf d a b => some (h.rawD 5 12 hf.bit 0 d a.code b.code 0)
  | .ffma h rm d a b c => some (h.rawD 6 0 false rm.code d a.code b.code c.code)
  | .ffms h rm d a b c => some (h.rawD 6 1 false rm.code d a.code b.code c.code)
  | .fnma h rm d a b c => some (h.rawD 6 2 false rm.code d a.code b.code c.code)
  | .hfma2 h hf rm d a b c => some (h.rawD 6 3 hf.bit rm.code d a.code b.code c.code)
  | .fabs h d a => some (h.rawD 7 0 false 0 d a.code 0 0)
  | .fneg h d a => some (h.rawD 7 1 false 0 d a.code 0 0)
  | .frnd h rm d a => some (h.rawD 7 2 false rm.code d a.code 0 0)
  | .fclass h d a => some (h.rawD 7 3 false 0 d a.code 0 0)
  | .fsat h d a => some (h.rawD 7 4 false 0 d a.code 0 0)
  | .fcmp h cond f p cb a b => some (h.raw 8 cond.code false f.code false (predCode p) a.code b.code cb.code)
  | .cvt h p rm d a => some (h.rawD 9 p.code false rm.code d a.code 0 0)
  | .rcp h d a => some (h.rawD 0x0A 0 false 0 d a.code 0 0)
  | .rsq h d a => some (h.rawD 0x0A 1 false 0 d a.code 0 0)
  | .sqrt h d a => some (h.rawD 0x0A 2 false 0 d a.code 0 0)
  | .exp2 h d a => some (h.rawD 0x0A 3 false 0 d a.code 0 0)
  | .log2 h d a => some (h.rawD 0x0A 4 false 0 d a.code 0 0)
  | .sinpi h d a => some (h.rawD 0x0A 5 false 0 d a.code 0 0)
  | .cospi h d a => some (h.rawD 0x0A 6 false 0 d a.code 0 0)
  | .tanh h d a => some (h.rawD 0x0A 7 false 0 d a.code 0 0)
  | .sigm h d a => some (h.rawD 0x0A 8 false 0 d a.code 0 0)
  | .divf h d a b => some (h.rawD 0x0A 9 false 0 d a.code b.code 0)
  | .bra h off => some (h.rawOff 0 off)
  | .brx h a => some (h.raw 0x10 1 false 0 false 0 a.code 0 0)
  | .call h off => some (h.rawOff 2 off)
  | .callx h a => some (h.raw 0x10 3 false 0 false 0 a.code 0 0)
  | .ret h => some (h.raw 0x10 4 false 0 false 0 0 0 0)
  | .exit h => some (h.raw 0x10 5 false 0 false 0 0 0 0)
  | .trap h a => some (h.raw 0x10 6 false 0 false 0 a.code 0 0)
  | .brk h => some (h.raw 0x10 7 false 0 false 0 0 0 0)
  | .jset h j => some (h.raw 0x11 0 false 0 false (maskCode j) 0 0 0)
  | .jadd h j => some (h.raw 0x11 1 false 0 false (maskCode j) 0 0 0)
  | .jclr h j => some (h.raw 0x11 2 false 0 false (maskCode j) 0 0 0)
  | .waitj h j => some (h.raw 0x11 3 false 0 false 0 (maskCode j) 0 0)
  | .elect h p => some (h.raw 0x11 4 false 0 false (predCode p) 0 0 0)
  | .sleepj h j => some (h.raw 0x11 5 false 0 false 0 (maskCode j) 0 0)
  | .wakej h j => some (h.raw 0x11 6 false 0 false (maskCode j) 0 0 0)
  | .strand w m => some (({ neg := false, idx := 7 } : Guard).long (m.extractLsb' 32 32) |>.raw 0x12 0 false (m.extractLsb' 30 2) false
      (w.setWidth 10) (m.extractLsb' 0 10) (m.extractLsb' 10 10) (m.extractLsb' 20 10))
  | .shfl h mo w d a b => some (h.rawD 0x13 0 w.bit mo.code d a.code b.code 0)
  | .lpush h d a b pc => some (h.rawD 0x13 1 pc.isSome 0 d a.code b.code ((pc.map predCode).getD 0))
  | .lpushWarp h d a b c => some (h.rawD 0x13 1 false 1 d a.code b.code c.code)
  | .voteAny h p inv q => some (h.raw 0x13 2 inv 0 false (predCode p) (predCode q) 0 0)
  | .voteAll h p inv q => some (h.raw 0x13 2 inv 1 false (predCode p) (predCode q) 0 0)
  | .voteBallot h d inv q => some (h.rawD 0x13 2 inv 2 d (predCode q) 0 0)
  | .voteEq h p a => some (h.raw 0x13 2 false 3 false (predCode p) a.code 0 0)
  | .redx h o w d a => some (h.rawD 0x13 3 false w.code d a.code 0 (maskCode o.code))
  | .scanx h ex o w d a => some (h.rawD 0x13 4 ex w.code d a.code 0 (maskCode o.code))
  | .matchx h w d a => some (h.rawD 0x13 5 w.bit 0 d a.code 0 0)
  | .ld h sz o d r b => some (h.rawD 0x20 0 sz.code.1 sz.code.2 d (recCode r) b.code (o.code 0))
  | .st h sz o r b c => some (h.raw 0x20 1 sz.code.1 sz.code.2 false (o.code 0) (recCode r) b.code c.code)
  | .lds h sz o d a b => some (h.rawD 0x20 2 sz.code.1 sz.code.2 d a.code b.code (o.code 0))
  | .sts h sz o a b c => some (h.raw 0x20 3 sz.code.1 sz.code.2 false (o.code 0) a.code b.code c.code)
  | .ldx h sz o k d a b => some (h.rawD 0x20 4 sz.code.1 sz.code.2 d a.code b.code (o.code k))
  | .stx h sz o k a b c => some (h.raw 0x20 5 sz.code.1 sz.code.2 false (o.code k) a.code b.code c.code)
  | .ldw h w o d r b => some (h.rawD 0x20 6 true w.code d (recCode r) b.code (o.code 0))
  | .atom g o w ord sc d r b c => some ((g.long (atomWord w ord sc)).rawD 0x21 o.code false 0 d (recCode r) b.code c.code)
  | .atoms g o w ord sc d a b c => some ((g.long (atomWord w ord sc)).rawD 0x21 o.code true 0 d a.code b.code c.code)
  | .fence h k sc => some (h.raw 0x22 (sc.code.setWidth 6) false k.code false 0 0 0 0)
  | .tagq h d a => some (h.rawD 0x23 0 false 0 d a.code 0 0)
  | .tagi h a b c => some (h.raw 0x23 1 false 0 false 0 a.code b.code c.code)
  | .tagx h a => some (h.raw 0x23 2 false 0 false 0 a.code 0 0)
  | .cpy h out box x clo a b r => some (h.raw 0x28 0 x (boolBit out ++ boolBit box.isSome) false (cloCode clo) a.code b.code r.code)
  | .gath h x clo a b v => some (h.raw 0x28 1 x 0 false (cloCode clo) a.code b.code v.code)
  | .coll h x clo a b => some (h.raw 0x28 2 x 0 false (cloCode clo) a.code b.code 0)
  | .binit h x a b c => some (h.raw 0x29 0 x 0 false 0 a.code b.code c.code)
  | .bexp h x a b c => some (h.raw 0x29 1 x 0 false 0 a.code b.code c.code)
  | .barv h x a b => some (h.raw 0x29 2 x 0 false 0 a.code b.code 0)
  | .bwait h x a b c => some (h.raw 0x29 3 x 0 false 0 a.code b.code c.code)
  | .btest h x p a b c => some (h.raw 0x29 4 x 0 false (predCode p) a.code b.code c.code)
  | .trig h => some (h.raw 0x29 5 false 0 false 0 0 0 0)
  | .mma h p m n keep g a b => some (h.raw 0x30 (p.code ++ m.code) false n.code false ((0 : BitVec 5) ++ boolBit keep ++ g.code) a.code b.code 0)
  | .mmag h p m n keep g a b v => some (h.raw 0x30 (p.code ++ m.code) true n.code false ((0 : BitVec 5) ++ boolBit keep ++ g.code) a.code b.code v.code)
  | .acz h => some (h.raw 0x31 0 false 0 false 0 0 0 0)
  | .acld h rns f a => some (h.raw 0x31 1 rns.isSome 0 false 0 a.code ((rns.map Opd.code).getD 0) (fmtSel f))
  | .acst h rns rm f a => some (h.raw 0x31 2 rns rm.code false 0 a.code 0 (fmtSel f))
  | .had h col a b => some (h.raw 0x31 3 col 0 false 0 a.code b.code 0)
  | .qnt h given isB f a => some (h.raw 0x31 4 given (widthBit isB).code false 0 a.code 0 (fmtSel f))
  | .snorm h isB a b => some (h.raw 0x32 0 isB 0 false 0 a.code b.code 0)
  | .salias g t a b => some ((g.long (t.setWidth 32)).raw 0x32 1 false 0 false 0 a.code b.code 0)
  | .spot g t m n bat gang a b c => some ((g.long (t.setWidth 32)).raw 0x32 2 false 0 false
      (n.code ++ m.code ++ bat.code ++ gang.code) a.code b.code c.code)
  | .sstat h d => some (h.raw 0x32 3 false 0 false d.code 0 0 0)
  | .srr h k d => some (h.rawD 0x38 0 false 0 d k.code 0 0)
  | .srw h k b => some (h.raw 0x38 1 false 0 false 0 k.code b.code 0)
  | .cede h => some (h.raw 0x38 2 false 0 false 0 0 0 0)
  | .cedeHold h => some (h.raw 0x38 2 false 1 false 0 0 0 0)
  | .cedeOpen h => some (h.raw 0x38 2 false 2 false 0 0 0 0)
  | .saveHold h a b => some (h.raw 0x38 3 false 0 false 0 a.code b.code 0)
  | .saveScr h a b => some (h.raw 0x38 3 false 1 false 0 a.code b.code 0)
  | .saveAcc h => some (h.raw 0x38 3 false 2 false 0 0 0 0)
  | .saveTag h => some (h.raw 0x38 3 false 3 false 0 0 0 0)
  | .trapretRestart h => some (h.raw 0x38 4 false 0 false 0 0 0 0)
  | .trapretSkip h => some (h.raw 0x38 4 false 1 false 0 0 0 0)
  | .watchOff h c => some (h.raw 0x38 5 false 0 false 0 0 0 c.code)
  | .watchW h a b c => some (h.raw 0x38 5 false 1 false 0 a.code b.code c.code)
  | .watchRw h a b c => some (h.raw 0x38 5 false 2 false 0 a.code b.code c.code)
  | .profStall h a b c => some (h.raw 0x38 6 false 0 false 0 a.code b.code c.code)
  | .profStop h => some (h.raw 0x38 6 false 1 false 0 0 0 0)
  | .profMem h a b c => some (h.raw 0x38 6 false 2 false 0 a.code b.code c.code)
  | .nop h => some (h.raw 0x38 7 false 0 false 0 0 0 0)
  | .thset h d a b => some (h.rawD 0x39 0 false 0 d a.code b.code 0)
  | .thdrop h a => some (h.raw 0x39 1 false 0 false 0 a.code 0 0)
  | .addC _ _ _ => none
  | .subC _ _ _ => none
  | .mulC _ _ _ => none
  | .mulhC _ _ _ => none
  | .mulhnC _ _ _ => none
  | .minC _ _ _ => none
  | .maxC _ _ _ => none
  | .minnC _ _ _ => none
  | .maxnC _ _ _ => none
  | .andC _ _ _ => none
  | .orC _ _ _ => none
  | .xorC _ _ _ => none
  | .andnC _ _ _ => none
  | .shlC _ _ _ => none
  | .shrC _ _ _ => none
  | .sarC _ _ _ => none
  | .rolC _ _ _ => none
  | .rorC _ _ _ => none
  | .add64C _ _ _ => none
  | .sub64C _ _ _ => none
  | .movC _ _ => none
  | .mov64C _ _ => none
  | .negC _ _ => none
  | .notC _ _ => none
  | .popcC _ _ => none
  | .clzC _ _ => none
  | .ctzC _ _ => none
  | .sext8C _ _ => none
  | .sext16C _ _ => none
  | .zext8C _ _ => none
  | .zext16C _ _ => none
  | .faddC _ _ _ => none
  | .fsubC _ _ _ => none
  | .fmulC _ _ _ => none
  | .fminC _ _ _ => none
  | .fmaxC _ _ _ => none
  | .fminpC _ _ _ => none
  | .fmaxpC _ _ _ => none
  | .fscaleC _ _ _ => none
  | .hadd2F16C _ _ _ => none
  | .hsub2F16C _ _ _ => none
  | .hmul2F16C _ _ _ => none
  | .hadd2Bf16C _ _ _ => none
  | .hsub2Bf16C _ _ _ => none
  | .hmul2Bf16C _ _ _ => none
  | .fabsC _ _ => none
  | .fnegC _ _ => none
  | .rcpC _ _ => none
  | .rsqC _ _ => none
  | .sqrtC _ _ => none
  | .exp2C _ _ => none
  | .log2C _ _ => none
  | .tanhC _ _ => none
  | .sigmC _ _ => none
  | .divfC _ _ _ => none
  | .cvtF32I32C _ _ => none
  | .cvtI32F32C _ _ => none
  | .cvtF32F16C _ _ => none
  | .cvtF16F32C _ _ => none
  | .shflIdxC _ _ _ => none
  | .shflXorC _ _ _ => none
  | .braC _ => none
  | .exitC => none
  | .fetchReturn _ => none
  | .sfuResult _ => none
  | .loadResult _ => none
  | .atomicResult _ => none
  | .tagqResult _ => none
  | .matrixUnitDone _ => none
  | .thsetComplete _ => none
  | .translationWalkDone _ _ _ => none
  | .emulationDone _ => none
  | .runAheadIssue _ => none
  | .windowFill _ => none
  | .windowExchange _ => none
  | .windowExchangeDone _ => none
  | .pageService _ _ _ _ => none
  | .engineJobStart _ _ => none
  | .engineJobAccess _ _ _ => none
  | .engineJobComplete _ _ => none
  | .launchRecord _ _ => none
  | .kick _ _ _ => none
  | .launchFrame _ _ _ => none
  | .dispatchParcel _ => none
  | .stagingDone _ _ _ => none
  | .parcelDone _ _ _ => none
  | .overrun _ _ _ => none
  | .hang _ _ _ => none
  | .sliceEnd _ => none
  | .sliceStart _ => none
  | .preemptHandlerEntry _ => none
  | .forcedSave _ => none
  | .resurveyStart _ => none
  | .resurveyScanEnd _ _ => none
  | .stallSample _ => none
  | .invalidatePage _ _ _ => none
  | .invalidationComplete _ _ => none
  | .migrationCopyDone _ _ _ _ => none
  | .frameFree _ _ _ => none
  | .scrubDone _ _ => none
  | .unitFailing _ _ => none
  | .evacuationDone _ => none
  | .swathStart _ => none
  | .swathComplete _ _ => none
  | .parityWalk _ => none
  | .partitionWrite _ _ _ => none
  | .contractWrite _ => none
  | .registerWrite _ _ _ => none
  | .haltGroup _ _ _ => none
  | .edit _ _ => none
  | .releaseGroup _ _ _ => none
  | .releaseThread _ _ => none
  | .precopyRound _ _ => none
  | .migrationStop _ => none
  | .migrationResume _ _ _ _ => none
  | .flitReceived _ _ _ => none
  | .portFailure _ => none
  | .remoteRequest _ _ _ _ _ _ => none
  | .collContribution _ _ _ _ => none
  | .hostWrite _ _ _ => none
  | .hostRead _ _ _ _ => none
  | .nvmeTransfer _ _ _ _ _ _ => none
  | .setPwrlim _ => none
  | .ownershipTransfer _ => none
  | .ownerInstall _ _ => none
  | .getVersion => none
  | .getCapabilities => none
  | .negotiateAlgorithms _ _ => none
  | .getDigests => none
  | .getCertificate _ => none
  | .challenge _ => none
  | .getMeasurements _ => none
  | .powerOnReset _ => none
  | .coolantFault _ _ => none
  | .junctionOvertemp _ => none
  | .powerThrottle _ _ => none
  | .debuggerAttach _ => none
  | .closureOperationPerformed _ => none
  | .storePerformed _ => none
  | .thdropAnswer _ => none
  | .watchSlotInstalled _ => none

/-- The word of a compact form. -/
def Instr.compact? : Instr → Option Word
  | .addC d a b => some (compactWord 1 d a.code b.code)
  | .subC d a b => some (compactWord 2 d a.code b.code)
  | .mulC d a b => some (compactWord 3 d a.code b.code)
  | .mulhC d a b => some (compactWord 4 d a.code b.code)
  | .mulhnC d a b => some (compactWord 5 d a.code b.code)
  | .minC d a b => some (compactWord 6 d a.code b.code)
  | .maxC d a b => some (compactWord 7 d a.code b.code)
  | .minnC d a b => some (compactWord 8 d a.code b.code)
  | .maxnC d a b => some (compactWord 9 d a.code b.code)
  | .andC d a b => some (compactWord 10 d a.code b.code)
  | .orC d a b => some (compactWord 11 d a.code b.code)
  | .xorC d a b => some (compactWord 12 d a.code b.code)
  | .andnC d a b => some (compactWord 13 d a.code b.code)
  | .shlC d a b => some (compactWord 14 d a.code b.code)
  | .shrC d a b => some (compactWord 15 d a.code b.code)
  | .sarC d a b => some (compactWord 16 d a.code b.code)
  | .rolC d a b => some (compactWord 17 d a.code b.code)
  | .rorC d a b => some (compactWord 18 d a.code b.code)
  | .add64C d a b => some (compactWord 19 d a.code b.code)
  | .sub64C d a b => some (compactWord 20 d a.code b.code)
  | .movC d a => some (compactWord 21 d a.code 0)
  | .mov64C d a => some (compactWord 22 d a.code 0)
  | .negC d a => some (compactWord 23 d a.code 0)
  | .notC d a => some (compactWord 24 d a.code 0)
  | .popcC d a => some (compactWord 25 d a.code 0)
  | .clzC d a => some (compactWord 26 d a.code 0)
  | .ctzC d a => some (compactWord 27 d a.code 0)
  | .sext8C d a => some (compactWord 28 d a.code 0)
  | .sext16C d a => some (compactWord 29 d a.code 0)
  | .zext8C d a => some (compactWord 30 d a.code 0)
  | .zext16C d a => some (compactWord 31 d a.code 0)
  | .faddC d a b => some (compactWord 32 d a.code b.code)
  | .fsubC d a b => some (compactWord 33 d a.code b.code)
  | .fmulC d a b => some (compactWord 34 d a.code b.code)
  | .fminC d a b => some (compactWord 35 d a.code b.code)
  | .fmaxC d a b => some (compactWord 36 d a.code b.code)
  | .fminpC d a b => some (compactWord 37 d a.code b.code)
  | .fmaxpC d a b => some (compactWord 38 d a.code b.code)
  | .fscaleC d a b => some (compactWord 39 d a.code b.code)
  | .hadd2F16C d a b => some (compactWord 40 d a.code b.code)
  | .hsub2F16C d a b => some (compactWord 41 d a.code b.code)
  | .hmul2F16C d a b => some (compactWord 42 d a.code b.code)
  | .hadd2Bf16C d a b => some (compactWord 43 d a.code b.code)
  | .hsub2Bf16C d a b => some (compactWord 44 d a.code b.code)
  | .hmul2Bf16C d a b => some (compactWord 45 d a.code b.code)
  | .fabsC d a => some (compactWord 46 d a.code 0)
  | .fnegC d a => some (compactWord 47 d a.code 0)
  | .rcpC d a => some (compactWord 48 d a.code 0)
  | .rsqC d a => some (compactWord 49 d a.code 0)
  | .sqrtC d a => some (compactWord 50 d a.code 0)
  | .exp2C d a => some (compactWord 51 d a.code 0)
  | .log2C d a => some (compactWord 52 d a.code 0)
  | .tanhC d a => some (compactWord 53 d a.code 0)
  | .sigmC d a => some (compactWord 54 d a.code 0)
  | .divfC d a b => some (compactWord 55 d a.code b.code)
  | .cvtF32I32C d a => some (compactWord 56 d a.code 0)
  | .cvtI32F32C d a => some (compactWord 57 d a.code 0)
  | .cvtF32F16C d a => some (compactWord 58 d a.code 0)
  | .cvtF16F32C d a => some (compactWord 59 d a.code 0)
  | .shflIdxC d a b => some (compactWord 60 d a.code b.code)
  | .shflXorC d a b => some (compactWord 61 d a.code b.code)
  | .braC off => some (off ++ (0x3E : BitVec 6) ++ (0 : BitVec 2))
  | .exitC => some (0xFC)
  | _ => none

/-- The words of an instruction; none for an event of the part, which has no encoding. -/
def encode (i : Instr) : Option (List Word) :=
  match i.compact? with
  | some w => some [w]
  | none => i.raw.map Raw.words

/-- The instruction that the decoder reads from words whose bits are `w`, numbered from bit 0 of the first word:
its little-endian bytes, laid out as the part stores them and read back as words (R47). -/
def wordsOf (w : Nat) : List Word :=
  [BitVec.ofNat 32 w, BitVec.ofNat 32 (w / 2 ^ 32), BitVec.ofNat 32 (w / 2 ^ 64)]

def decodeTableWord (nbits w : Nat) : Option Instr :=
  match decode (wordsOf (w % 2 ^ nbits)) with
  | .ok i => some i
  | .error _ => none

end Sys2Proof
end

