-- ==== Sys2Proof/Machine/Int.lean ====
section
/-! DEFINITION. The integer families INT2, INT3, INT1 and `CMP` (spec/05 R95 to R109). -/

namespace Sys2Proof.Machine

/-! ### Scalar operations -/

/-- Width in bits. -/
def wBits : Width → Nat
  | .w32 => 32
  | .w64 => 64

/-- A natural or signed result modulo 2^w. -/
def natW (w : Width) (x : Nat) : Dword := trunc w (BitVec.ofNat 64 x)
def intW (w : Width) (x : Int) : Dword := trunc w (BitVec.ofInt 64 x)

def addW (w : Width) (a b : Dword) : Dword := trunc w (a + b)
def subW (w : Width) (a b : Dword) : Dword := trunc w (a - b)
def mulW (w : Width) (a b : Dword) : Dword := trunc w (a * b)

/-- High half of the signed product: bits [2w-1:w] (R101). -/
def mulhW (w : Width) (a b : Dword) : Dword := intW w ((sInt w a * sInt w b) / (2 : Int) ^ wBits w)
def mulhnW (w : Width) (a b : Dword) : Dword := natW w ((nNat w a * nNat w b) / 2 ^ wBits w)

/-- The signed division that wraps: the least value by −1 (R102). -/
def divWraps (w : Width) (a b : Dword) : Bool :=
  sInt w a == -((2 : Int) ^ (wBits w - 1)) && sInt w b == -1

/-- Quotients and remainders (R102). -/
def divW (w : Width) (a b : Dword) : Dword :=
  if nNat w b = 0 then natW w (2 ^ wBits w - 1)
  else if divWraps w a b then trunc w a
  else intW w ((sInt w a).tdiv (sInt w b))
def remW (w : Width) (a b : Dword) : Dword :=
  if nNat w b = 0 then trunc w a
  else if divWraps w a b then 0
  else intW w ((sInt w a).tmod (sInt w b))
def divnW (w : Width) (a b : Dword) : Dword :=
  if nNat w b = 0 then natW w (2 ^ wBits w - 1) else natW w (nNat w a / nNat w b)
def remnW (w : Width) (a b : Dword) : Dword :=
  if nNat w b = 0 then trunc w a else natW w (nNat w a % nNat w b)

def minW (w : Width) (a b : Dword) : Dword := if sInt w b < sInt w a then trunc w b else trunc w a
def maxW (w : Width) (a b : Dword) : Dword := if sInt w a < sInt w b then trunc w b else trunc w a
def minnW (w : Width) (a b : Dword) : Dword := if nNat w b < nNat w a then trunc w b else trunc w a
def maxnW (w : Width) (a b : Dword) : Dword := if nNat w a < nNat w b then trunc w b else trunc w a

def andW (w : Width) (a b : Dword) : Dword := trunc w (a &&& b)
def orW (w : Width) (a b : Dword) : Dword := trunc w (a ||| b)
def xorW (w : Width) (a b : Dword) : Dword := trunc w (a ^^^ b)
def andnW (w : Width) (a b : Dword) : Dword := trunc w (a &&& ~~~ b)
def ornW (w : Width) (a b : Dword) : Dword := trunc w (a ||| ~~~ b)

/-- The count of a shift or rotate: N(b[5:0]) AND (w - 1) (R103). -/
def shCount (w : Width) (b : Dword) : Nat := b.toNat % 64 % wBits w
def shlW (w : Width) (a b : Dword) : Dword := trunc w (a <<< shCount w b)
def shrW (w : Width) (a b : Dword) : Dword := trunc w (trunc w a >>> shCount w b)
def sarW (w : Width) (a b : Dword) : Dword := intW w (sInt w a / (2 : Int) ^ shCount w b)
def rolW (w : Width) (a b : Dword) : Dword :=
  trunc w ((a <<< shCount w b) ||| (trunc w a >>> (wBits w - shCount w b)))
def rorW (w : Width) (a b : Dword) : Dword :=
  trunc w ((trunc w a >>> shCount w b) ||| (a <<< (wBits w - shCount w b)))

def madW (w : Width) (a b c : Dword) : Dword := trunc w (a * b + c)
/-- High word of N(a) times N(b) plus N(c) (R104). -/
def madhW (w : Width) (a b c : Dword) : Dword := natW w ((nNat w a * nNat w b + nNat w c) / 2 ^ wBits w)
/-- `LEA`: the 32-bit b is sign-extended in the 64-bit form (R104). -/
def leaW (w : Width) (a b c : Dword) : Dword :=
  let bx : Dword := match w with
    | .w32 => b
    | .w64 => sx (lo32 b)
  trunc w (a + (bx <<< (c.toNat % wBits w)))
def add3W (w : Width) (a b c : Dword) : Dword := trunc w (a + b + c)

/-- Bit-field extract (R105). -/
def bfxW (w : Width) (a b : Dword) : Dword :=
  let pos := field b 7 0
  let len := field b 15 8
  if wBits w ≤ pos ∨ len = 0 then 0
  else
    let n := min len (wBits w - pos)
    let f := (nNat w a / 2 ^ pos) % 2 ^ n
    if b.getLsbD 16 && decide (2 ^ (n - 1) ≤ f) then intW w ((f : Int) - (2 : Int) ^ n) else natW w f

/-- Bit-field insert (R105). -/
def bfiW (w : Width) (a b c : Dword) : Dword :=
  let pos := field c 7 0
  let len := field c 15 8
  if wBits w ≤ pos ∨ len = 0 then trunc w b
  else
    let n := min len (wBits w - pos)
    let mask := BitVec.ofNat 64 ((2 ^ n - 1) * 2 ^ pos)
    trunc w ((b &&& ~~~ mask) ||| ((a <<< pos) &&& mask))

def negW (w : Width) (a : Dword) : Dword := trunc w (-a)
def absW (w : Width) (a : Dword) : Dword := if 0 ≤ sInt w a then trunc w a else trunc w (-a)
def notW (w : Width) (a : Dword) : Dword := trunc w (~~~ a)

/-- Number of one bits of the low `n` bits. -/
def onesIn (x : Dword) : Nat → Nat
  | 0 => 0
  | n + 1 => b2n (x.getLsbD n) + onesIn x n

/-- Zero bits above the highest one of the low `n` bits; below the lowest one, from bit `i` with `n` left. -/
def leadZeros (x : Dword) : Nat → Nat
  | 0 => 0
  | n + 1 => if x.getLsbD n then 0 else leadZeros x n + 1
def trailZeros (x : Dword) (i : Nat) : Nat → Nat
  | 0 => 0
  | n + 1 => if x.getLsbD i then 0 else trailZeros x (i + 1) n + 1

/-- The low `n` bits in reverse order, the first of them bit `i`. -/
def revBits (x : Dword) (i : Nat) : Nat → Nat
  | 0 => 0
  | n + 1 => b2n (x.getLsbD i) * 2 ^ n + revBits x (i + 1) n

def popcW (w : Width) (a : Dword) : Dword := natW w (onesIn a (wBits w))
def clzW (w : Width) (a : Dword) : Dword := natW w (leadZeros a (wBits w))
def ctzW (w : Width) (a : Dword) : Dword := natW w (trailZeros a 0 (wBits w))
def brevW (w : Width) (a : Dword) : Dword := natW w (revBits a 0 (wBits w))
def sext8W (w : Width) (a : Dword) : Dword := trunc w ((a.setWidth 8).signExtend 64)
def sext16W (w : Width) (a : Dword) : Dword := trunc w ((a.setWidth 16).signExtend 64)
def zext8W (a : Dword) : Dword := (a.setWidth 8).setWidth 64
def zext16W (a : Dword) : Dword := (a.setWidth 16).setWidth 64

/-! ### Instruction shapes -/

def isWide : Width → Bool
  | .w32 => false
  | .w64 => true

/-- An instruction with one, two or three sources whose lanes do not see one another. -/
def Desc.one (h : Hdr) (t : Target) (a : Opd × Ty) (f : Bool → Dword → Dword) : Desc :=
  { guard := h.guard, lit := h.lit, srcs := [a], tgt := t, xlane := false,
    fn := fun fl _ xs _ l => f fl ((xs l).getD 0 0) }
def Desc.two (h : Hdr) (t : Target) (a b : Opd × Ty) (f : Bool → Dword → Dword → Dword) : Desc :=
  { guard := h.guard, lit := h.lit, srcs := [a, b], tgt := t, xlane := false,
    fn := fun fl _ xs _ l => f fl ((xs l).getD 0 0) ((xs l).getD 1 0) }
def Desc.three (h : Hdr) (t : Target) (a b c : Opd × Ty) (f : Bool → Dword → Dword → Dword → Dword) : Desc :=
  { guard := h.guard, lit := h.lit, srcs := [a, b, c], tgt := t, xlane := false,
    fn := fun fl _ xs _ l => f fl ((xs l).getD 0 0) ((xs l).getD 1 0) ((xs l).getD 2 0) }

/-- Integer instructions of a width (R95). -/
def int2 (h : Hdr) (w : Width) (d : Dst) (a b : Opd) (f : Width → Dword → Dword → Dword) : Desc :=
  Desc.two h (.reg d (isWide w)) (a, widthTy w) (b, widthTy w) (fun _ x y => f w x y)
/-- The same with a 32-bit second source (R95). -/
def intSh (h : Hdr) (w : Width) (d : Dst) (a b : Opd) (f : Width → Dword → Dword → Dword) : Desc :=
  Desc.two h (.reg d (isWide w)) (a, widthTy w) (b, .i32) (fun _ x y => f w x y)
def int1 (h : Hdr) (w : Width) (d : Dst) (a : Opd) (f : Width → Dword → Dword) : Desc :=
  Desc.one h (.reg d (isWide w)) (a, widthTy w) (fun _ x => f w x)
def int3 (h : Hdr) (w : Width) (d : Dst) (a b c : Opd) (f : Width → Dword → Dword → Dword → Dword) : Desc :=
  Desc.three h (.reg d (isWide w)) (a, widthTy w) (b, widthTy w) (c, widthTy w) (fun _ x y z => f w x y z)


/-! ### INT2 (R101 to R103) -/

/-- `ADD` (R101). -/
def execAdd (h : Hdr) (w : Width) (d : Dst) (a b : Opd) (s : State) : Res :=
  (int2 h w d a b addW).run s

/-- `SUB` (R101). -/
def execSub (h : Hdr) (w : Width) (d : Dst) (a b : Opd) (s : State) : Res :=
  (int2 h w d a b subW).run s

/-- `MUL` (R101). -/
def execMul (h : Hdr) (w : Width) (d : Dst) (a b : Opd) (s : State) : Res :=
  (int2 h w d a b mulW).run s

/-- `MULH` (R101). -/
def execMulh (h : Hdr) (w : Width) (d : Dst) (a b : Opd) (s : State) : Res :=
  (int2 h w d a b mulhW).run s

/-- `MULHN` (R101). -/
def execMulhn (h : Hdr) (w : Width) (d : Dst) (a b : Opd) (s : State) : Res :=
  (int2 h w d a b mulhnW).run s

/-- `DIV` (R102). -/
def execDiv (h : Hdr) (w : Width) (d : Dst) (a b : Opd) (s : State) : Res :=
  (int2 h w d a b divW).run s

/-- `DIVN` (R102). -/
def execDivn (h : Hdr) (w : Width) (d : Dst) (a b : Opd) (s : State) : Res :=
  (int2 h w d a b divnW).run s

/-- `REM` (R102). -/
def execRem (h : Hdr) (w : Width) (d : Dst) (a b : Opd) (s : State) : Res :=
  (int2 h w d a b remW).run s

/-- `REMN` (R102). -/
def execRemn (h : Hdr) (w : Width) (d : Dst) (a b : Opd) (s : State) : Res :=
  (int2 h w d a b remnW).run s

/-- `MIN` (R101). -/
def execMinS (h : Hdr) (w : Width) (d : Dst) (a b : Opd) (s : State) : Res :=
  (int2 h w d a b minW).run s

/-- `MAX` (R101). -/
def execMaxS (h : Hdr) (w : Width) (d : Dst) (a b : Opd) (s : State) : Res :=
  (int2 h w d a b maxW).run s

/-- `MINN` (R101). -/
def execMinn (h : Hdr) (w : Width) (d : Dst) (a b : Opd) (s : State) : Res :=
  (int2 h w d a b minnW).run s

/-- `MAXN` (R101). -/
def execMaxn (h : Hdr) (w : Width) (d : Dst) (a b : Opd) (s : State) : Res :=
  (int2 h w d a b maxnW).run s

/-- `AND` (R101). -/
def execAndB (h : Hdr) (w : Width) (d : Dst) (a b : Opd) (s : State) : Res :=
  (int2 h w d a b andW).run s

/-- `OR` (R101). -/
def execOrB (h : Hdr) (w : Width) (d : Dst) (a b : Opd) (s : State) : Res :=
  (int2 h w d a b orW).run s

/-- `XOR` (R101). -/
def execXorB (h : Hdr) (w : Width) (d : Dst) (a b : Opd) (s : State) : Res :=
  (int2 h w d a b xorW).run s

/-- `ANDN` (R101). -/
def execAndn (h : Hdr) (w : Width) (d : Dst) (a b : Opd) (s : State) : Res :=
  (int2 h w d a b andnW).run s

/-- `ORN` (R101). -/
def execOrn (h : Hdr) (w : Width) (d : Dst) (a b : Opd) (s : State) : Res :=
  (int2 h w d a b ornW).run s

/-- `SHL` (R103). -/
def execShl (h : Hdr) (w : Width) (d : Dst) (a b : Opd) (s : State) : Res :=
  (intSh h w d a b shlW).run s

/-- `SHR` (R103). -/
def execShr (h : Hdr) (w : Width) (d : Dst) (a b : Opd) (s : State) : Res :=
  (intSh h w d a b shrW).run s

/-- `SAR` (R103). -/
def execSar (h : Hdr) (w : Width) (d : Dst) (a b : Opd) (s : State) : Res :=
  (intSh h w d a b sarW).run s

/-- `ROL` (R103). -/
def execRol (h : Hdr) (w : Width) (d : Dst) (a b : Opd) (s : State) : Res :=
  (intSh h w d a b rolW).run s

/-- `ROR` (R103). -/
def execRor (h : Hdr) (w : Width) (d : Dst) (a b : Opd) (s : State) : Res :=
  (intSh h w d a b rorW).run s

/-! ### INT3 (R104 to R106) -/

/-- `MAD` (R104). -/
def execMad (h : Hdr) (w : Width) (d : Dst) (a b c : Opd) (s : State) : Res :=
  (int3 h w d a b c madW).run s

/-- `MADH` (R104). -/
def execMadh (h : Hdr) (w : Width) (d : Dst) (a b c : Opd) (s : State) : Res :=
  (int3 h w d a b c madhW).run s

/-- `ADD3` (R104). -/
def execAdd3 (h : Hdr) (w : Width) (d : Dst) (a b c : Opd) (s : State) : Res :=
  (int3 h w d a b c add3W).run s

/-- `LEA` (R104). -/
def execLea (h : Hdr) (w : Width) (d : Dst) (a b c : Opd) (s : State) : Res :=
  (Desc.three h (.reg d (isWide w)) (a, widthTy w) (b, .i32) (c, .i32) (fun _ x y z => leaW w x y z)).run s

/-- `BFX` (R105). -/
def execBfx (h : Hdr) (w : Width) (d : Dst) (a b : Opd) (s : State) : Res :=
  (intSh h w d a b bfxW).run s

/-- `BFI` (R105). -/
def execBfi (h : Hdr) (w : Width) (d : Dst) (a b c : Opd) (s : State) : Res :=
  (Desc.three h (.reg d (isWide w)) (a, widthTy w) (b, widthTy w) (c, .i32) (fun _ x y z => bfiW w x y z)).run s

/-- `SEL`: a where the predicate is true in the lane, else b (R106). -/
def selDesc (h : Hdr) (w : Width) (d : Dst) (a b : Opd) (p : BitVec 3) : Desc :=
  { guard := h.guard, lit := h.lit, srcs := [(a, widthTy w), (b, widthTy w)], tgt := .reg d (isWide w),
    xlane := false, fn := fun _ _ xs pr l => trunc w ((xs l).getD (if pr l p.toNat then 0 else 1) 0) }

/-- `SEL` (R106). -/
def execSel (h : Hdr) (w : Width) (d : Dst) (a b : Opd) (p : BitVec 3) (s : State) : Res :=
  (selDesc h w d a b p).run s

/-! ### INT1 (R107) -/

/-- `MOV` (R107). -/
def execMov (h : Hdr) (w : Width) (d : Dst) (a : Opd) (s : State) : Res :=
  (int1 h w d a trunc).run s

/-- `NEG` (R107). -/
def execNeg (h : Hdr) (w : Width) (d : Dst) (a : Opd) (s : State) : Res :=
  (int1 h w d a negW).run s

/-- `ABS` (R107). -/
def execAbs (h : Hdr) (w : Width) (d : Dst) (a : Opd) (s : State) : Res :=
  (int1 h w d a absW).run s

/-- `NOT` (R107). -/
def execNotB (h : Hdr) (w : Width) (d : Dst) (a : Opd) (s : State) : Res :=
  (int1 h w d a notW).run s

/-- `POPC` (R107). -/
def execPopc (h : Hdr) (w : Width) (d : Dst) (a : Opd) (s : State) : Res :=
  (int1 h w d a popcW).run s

/-- `CLZ` (R107). -/
def execClz (h : Hdr) (w : Width) (d : Dst) (a : Opd) (s : State) : Res :=
  (int1 h w d a clzW).run s

/-- `CTZ` (R107). -/
def execCtz (h : Hdr) (w : Width) (d : Dst) (a : Opd) (s : State) : Res :=
  (int1 h w d a ctzW).run s

/-- `BREV` (R107). -/
def execBrev (h : Hdr) (w : Width) (d : Dst) (a : Opd) (s : State) : Res :=
  (int1 h w d a brevW).run s

/-- `SEXT8` (R107). -/
def execSext8 (h : Hdr) (w : Width) (d : Dst) (a : Opd) (s : State) : Res :=
  (int1 h w d a sext8W).run s

/-- `SEXT16` (R107). -/
def execSext16 (h : Hdr) (w : Width) (d : Dst) (a : Opd) (s : State) : Res :=
  (int1 h w d a sext16W).run s

/-- `ZEXT8` (R107). -/
def execZext8 (h : Hdr) (w : Width) (d : Dst) (a : Opd) (s : State) : Res :=
  (int1 h w d a (fun _ => zext8W)).run s

/-- `ZEXT16` (R107). -/
def execZext16 (h : Hdr) (w : Width) (d : Dst) (a : Opd) (s : State) : Res :=
  (int1 h w d a (fun _ => zext16W)).run s

/-! ### CMP (R108, R109) -/

/-- A comparison joined with a predicate as it stood before. -/
def cmpDesc (h : Hdr) (pd : BitVec 3) (cb : Combine) (a b : Opd × Ty) (c : Dword → Dword → Bool) : Desc :=
  { guard := h.guard, lit := h.lit, srcs := [a, b], tgt := .pred pd, xlane := false,
    fn := fun _ _ xs pr l =>
      if cb.join (pr l) (c ((xs l).getD 0 0) ((xs l).getD 1 0)) then 1 else 0 }

/-- `CMP` (R109). -/
def execCmp (h : Hdr) (cond : CmpCond) (w : Width) (pd : BitVec 3) (cb : Combine) (a b : Opd) (s : State) : Res :=
  (cmpDesc h pd cb (a, widthTy w) (b, widthTy w) (cond.holds w)).run s

end Sys2Proof.Machine
end

