-- ==== Sys2Proof/Machine/FloatAlu.lean ====
section
/-! DEFINITION. The floating-point families FP2, FP3, FP1, `FCMP` and `CVT` (spec/05 R110 to R117). -/

namespace Sys2Proof.Machine

/-! ### Scalar operations -/

/-- One rounding of an exact value of two operands, or of three, under the flush flag (R76, R78). -/
def FFmt.op2 (f : FFmt) (rm : Rnd) (ex : Fl → Fl → Fl) (fl : Bool) (a b : Nat) : Nat :=
  f.output fl rm (ex (f.input fl a) (f.input fl b))
def FFmt.op3 (f : FFmt) (rm : Rnd) (ex : Fl → Fl → Fl → Fl) (fl : Bool) (a b c : Nat) : Nat :=
  f.output fl rm (ex (f.input fl a) (f.input fl b) (f.input fl c))

/-- Code of a 32-bit operand, and of the low or high element of a packed one (R72). -/
def code32 (x : Dword) : Nat := (lo32 x).toNat
def elem (k : Nat) (x : Dword) : Nat := (lo32 x).toNat / 65536 ^ k % 65536

/-- The FP32 operation as a function of lanes' values. -/
def f2 (rm : Rnd) (ex : Fl → Fl → Fl) (fl : Bool) (a b : Dword) : Dword :=
  BitVec.ofNat 64 (fp32.op2 rm ex fl (code32 a) (code32 b))
def f3 (rm : Rnd) (ex : Fl → Fl → Fl → Fl) (fl : Bool) (a b c : Dword) : Dword :=
  BitVec.ofNat 64 (fp32.op3 rm ex fl (code32 a) (code32 b) (code32 c))
def f1 (g : Nat → Nat) (a : Dword) : Dword := BitVec.ofNat 64 (g (code32 a))

/-- A packed operation, element by element (R113). -/
def h2 (g : Nat → Nat → Nat) (a b : Dword) : Dword :=
  BitVec.ofNat 64 (g (elem 1 a) (elem 1 b) * 65536 + g (elem 0 a) (elem 0 b))
def h3 (g : Nat → Nat → Nat → Nat) (a b c : Dword) : Dword :=
  BitVec.ofNat 64 (g (elem 1 a) (elem 1 b) (elem 1 c) * 65536 + g (elem 0 a) (elem 0 b) (elem 0 c))

def exAdd (rm : Rnd) (a b : Fl) : Fl := Fl.add rm a b
def exSub (rm : Rnd) (a b : Fl) : Fl := Fl.add rm a b.neg
def exFma (rm : Rnd) (a b c : Fl) : Fl := Fl.add rm (Fl.mul a b) c
def exFms (rm : Rnd) (a b c : Fl) : Fl := Fl.add rm (Fl.mul a b) c.neg
def exFnma (rm : Rnd) (a b c : Fl) : Fl := Fl.add rm (Fl.mul a b).neg c

/-- `FSCALE`: a times 2^S(b) (R111). An exponent beyond ±1,000 rounds as ±1,000 does. -/
def fscaleF (rm : Rnd) (fl : Bool) (a b : Dword) : Dword :=
  let k : Int := max (-1000) (min 1000 (lo32 b).toInt)
  BitVec.ofNat 64 (fp32.output fl rm (Fl.scale k (fp32.input fl (code32 a))))

/-- `FABS` and `FNEG` (R115). -/
def fabsC (c : Nat) : Nat := if (fp32.decode c).isNan then fp32.nanCode else c % 2 ^ 31
def fnegC (c : Nat) : Nat := if (fp32.decode c).isNan then fp32.nanCode else (c + 2 ^ 31) % 2 ^ 32

/-- Layout of a conversion's source and destination when both are floating (R65). -/
def CvtPairFmt (p : CvtPair) : Option (FFmt × FFmt) :=
  match p with
  | .f32f16 => some (fp16, fp32)
  | .f32bf16 => some (bfp16, fp32)
  | .f16f32 => some (fp32, fp16)
  | .bf16f32 => some (fp32, bfp16)
  | .f16bf16 => some (bfp16, fp16)
  | .bf16f16 => some (fp16, bfp16)
  | .f32e4m3 => some (fpE4, fp32)
  | .f32e5m2 => some (fpE5, fp32)
  | .e4m3f32 => some (fp32, fpE4)
  | .e5m2f32 => some (fp32, fpE5)
  | _ => none

/-- A conversion (R83, R117). -/
def cvtF (p : CvtPair) (rm : Rnd) (a : Dword) : Dword :=
  let toI (lo hi : Int) : Int := fpToInt rm lo hi (code32 a)
  let ofI (i : Int) : Dword := BitVec.ofNat 64 (fp32.round rm (Fl.ofInt i))
  match CvtPairFmt p with
  | some (src, dst) => BitVec.ofNat 64 (src.convert dst rm (code32 a % (2 * src.sign)))
  | none =>
    match p with
    | .f32i32 => ofI (lo32 a).toInt
    | .f32n32 => ofI (lo32 a).toNat
    | .f32i64 => ofI a.toInt
    | .f32n64 => ofI a.toNat
    | .i32f32 => zx (BitVec.ofInt 32 (toI (-(2 ^ 31)) (2 ^ 31 - 1)))
    | .n32f32 => zx (BitVec.ofInt 32 (toI 0 (2 ^ 32 - 1)))
    | .i64f32 => BitVec.ofInt 64 (toI (-(2 ^ 63)) (2 ^ 63 - 1))
    | .n64f32 => BitVec.ofInt 64 (toI 0 (2 ^ 64 - 1))
    | .i8f32 => zx (BitVec.ofInt 32 (toI (-128) 127))
    | .n8f32 => zx (BitVec.ofInt 32 (toI 0 255))
    | .i16f32 => zx (BitVec.ofInt 32 (toI (-32768) 32767))
    | .n16f32 => zx (BitVec.ofInt 32 (toI 0 65535))
    | _ => 0

/-- How the source of a conversion reads (R72, R117). -/
def cvtTy (p : CvtPair) : Ty :=
  match p with
  | .f32f16 | .bf16f16 => .s16 .f16
  | .f32bf16 | .f16bf16 => .s16 .bf16
  | .f32e4m3 | .f32e5m2 => .b8
  | .f32i32 | .f32n32 => .i32
  | .f32i64 | .f32n64 => .i64
  | _ => .f32

def cvtWide (p : CvtPair) : Bool := p == .i64f32 || p == .n64f32

/-- How the operands of `FCMP` read (R72). -/
def cmpFmtTy : CmpFmt → Ty
  | .f32 => .f32
  | .f16 => .s16 .f16
  | .bf16 => .s16 .bf16

/-! ### Instruction shapes -/

def fp2Desc (h : Hdr) (d : Dst) (a b : Opd) (f : Bool → Dword → Dword → Dword) : Desc :=
  Desc.two h (.reg d false) (a, .f32) (b, .f32) f
def fp3Desc (h : Hdr) (d : Dst) (a b c : Opd) (f : Bool → Dword → Dword → Dword → Dword) : Desc :=
  Desc.three h (.reg d false) (a, .f32) (b, .f32) (c, .f32) f
def fp1Desc (h : Hdr) (d : Dst) (a : Opd) (g : Nat → Nat) : Desc :=
  Desc.one h (.reg d false) (a, .f32) (fun _ x => f1 g x)
def half2Desc (h : Hdr) (hf : Half) (d : Dst) (a b : Opd) (g : Bool → Nat → Nat → Nat) : Desc :=
  Desc.two h (.reg d false) (a, .pair hf) (b, .pair hf) (fun fl x y => h2 (g fl) x y)

def fscaleDesc (h : Hdr) (rm : Rnd) (d : Dst) (a b : Opd) : Desc :=
  Desc.two h (.reg d false) (a, .f32) (b, .i32) (fscaleF rm)
def cvtDesc (h : Hdr) (p : CvtPair) (rm : Rnd) (d : Dst) (a : Opd) : Desc :=
  Desc.one h (.reg d (cvtWide p)) (a, cvtTy p) (fun _ x => cvtF p rm x)

/-! ### FP2 (R110 to R113) -/

/-- `FADD` (R110). -/
def execFadd (h : Hdr) (rm : Rnd) (d : Dst) (a b : Opd) (s : State) : Res :=
  (fp2Desc h d a b (f2 rm (exAdd rm))).run s

/-- `FSUB` (R110). -/
def execFsub (h : Hdr) (rm : Rnd) (d : Dst) (a b : Opd) (s : State) : Res :=
  (fp2Desc h d a b (f2 rm (exSub rm))).run s

/-- `FMUL` (R110). -/
def execFmul (h : Hdr) (rm : Rnd) (d : Dst) (a b : Opd) (s : State) : Res :=
  (fp2Desc h d a b (f2 rm Fl.mul)).run s

/-- `FMIN` (R112). -/
def execFmin (h : Hdr) (d : Dst) (a b : Opd) (s : State) : Res :=
  (fp2Desc h d a b (fun _ x y => BitVec.ofNat 64 (fp32.minmax false false (code32 x) (code32 y)))).run s

/-- `FMAX` (R112). -/
def execFmax (h : Hdr) (d : Dst) (a b : Opd) (s : State) : Res :=
  (fp2Desc h d a b (fun _ x y => BitVec.ofNat 64 (fp32.minmax true false (code32 x) (code32 y)))).run s

/-- `FMINP` (R112). -/
def execFminp (h : Hdr) (d : Dst) (a b : Opd) (s : State) : Res :=
  (fp2Desc h d a b (fun _ x y => BitVec.ofNat 64 (fp32.minmax false true (code32 x) (code32 y)))).run s

/-- `FMAXP` (R112). -/
def execFmaxp (h : Hdr) (d : Dst) (a b : Opd) (s : State) : Res :=
  (fp2Desc h d a b (fun _ x y => BitVec.ofNat 64 (fp32.minmax true true (code32 x) (code32 y)))).run s

/-- `FSCALE` (R111). -/
def execFscale (h : Hdr) (rm : Rnd) (d : Dst) (a b : Opd) (s : State) : Res :=
  (fscaleDesc h rm d a b).run s

/-- `HADD2` (R113). -/
def execHadd2 (h : Hdr) (hf : Half) (rm : Rnd) (d : Dst) (a b : Opd) (s : State) : Res :=
  (half2Desc h hf d a b (hf.fmt.op2 rm (exAdd rm))).run s

/-- `HSUB2` (R113). -/
def execHsub2 (h : Hdr) (hf : Half) (rm : Rnd) (d : Dst) (a b : Opd) (s : State) : Res :=
  (half2Desc h hf d a b (hf.fmt.op2 rm (exSub rm))).run s

/-- `HMUL2` (R113). -/
def execHmul2 (h : Hdr) (hf : Half) (rm : Rnd) (d : Dst) (a b : Opd) (s : State) : Res :=
  (half2Desc h hf d a b (hf.fmt.op2 rm Fl.mul)).run s

/-- `HMIN2` (R113). -/
def execHmin2 (h : Hdr) (hf : Half) (d : Dst) (a b : Opd) (s : State) : Res :=
  (half2Desc h hf d a b (fun _ => hf.fmt.minmax false false)).run s

/-- `HMAX2` (R113). -/
def execHmax2 (h : Hdr) (hf : Half) (d : Dst) (a b : Opd) (s : State) : Res :=
  (half2Desc h hf d a b (fun _ => hf.fmt.minmax true false)).run s

/-! ### FP3 (R114) -/

/-- `FFMA` (R114). -/
def execFfma (h : Hdr) (rm : Rnd) (d : Dst) (a b c : Opd) (s : State) : Res :=
  (fp3Desc h d a b c (f3 rm (exFma rm))).run s

/-- `FFMS` (R114). -/
def execFfms (h : Hdr) (rm : Rnd) (d : Dst) (a b c : Opd) (s : State) : Res :=
  (fp3Desc h d a b c (f3 rm (exFms rm))).run s

/-- `FNMA` (R114). -/
def execFnma (h : Hdr) (rm : Rnd) (d : Dst) (a b c : Opd) (s : State) : Res :=
  (fp3Desc h d a b c (f3 rm (exFnma rm))).run s

/-- `HFMA2` (R114). -/
def execHfma2 (h : Hdr) (hf : Half) (rm : Rnd) (d : Dst) (a b c : Opd) (s : State) : Res :=
  (Desc.three h (.reg d false) (a, .pair hf) (b, .pair hf) (c, .pair hf)
    (fun fl x y z => h3 (hf.fmt.op3 rm (exFma rm) fl) x y z)).run s

/-! ### FP1 (R115, R116) -/

/-- `FABS` (R115). -/
def execFabs (h : Hdr) (d : Dst) (a : Opd) (s : State) : Res :=
  (fp1Desc h d a fabsC).run s

/-- `FNEG` (R115). -/
def execFneg (h : Hdr) (d : Dst) (a : Opd) (s : State) : Res :=
  (fp1Desc h d a fnegC).run s

/-- `FCLASS` (R116). -/
def execFclass (h : Hdr) (d : Dst) (a : Opd) (s : State) : Res :=
  (fp1Desc h d a fclass).run s

/-- `FSAT` (R115). -/
def execFsat (h : Hdr) (d : Dst) (a : Opd) (s : State) : Res :=
  (fp1Desc h d a fsat).run s

/-- `FRND` (R115). -/
def execFrnd (h : Hdr) (rm : Rnd) (d : Dst) (a : Opd) (s : State) : Res :=
  (fp1Desc h d a (Machine.frnd rm)).run s

/-! ### FCMP and CVT (R109, R117) -/

/-- `FCMP` (R109). -/
def execFcmp (h : Hdr) (cond : FCmpCond) (f : CmpFmt) (pd : BitVec 3) (cb : Combine) (a b : Opd) (s : State) : Res :=
  (cmpDesc h pd cb (a, cmpFmtTy f) (b, cmpFmtTy f) (fun x y => cond.holds (f.value x) (f.value y))).run s

/-- `CVT` (R117). -/
def execCvt (h : Hdr) (p : CvtPair) (rm : Rnd) (d : Dst) (a : Opd) (s : State) : Res :=
  (cvtDesc h p rm d a).run s

end Sys2Proof.Machine
end

