-- ==== Sys2Proof/Machine/Sfu.lean ====
section
/-! DEFINITION. The special functions (spec/05 R118 to R121): each result is the FP32 value nearest the exact
real value, from fixed-point series with 256 fraction bits and a sticky bit. -/

namespace Sys2Proof.Machine

/-- One in fixed point, π and ln 2. -/
def fxOne : Nat := 2 ^ 256
def fxPi : Nat := 363771576891766324280234942777729862653393377328392429958772151117938894466185
def fxLn2 : Nat := 80260960185991308862233904206310070533990667611589946606122867505419956976171

/-- Sum of the terms t, t·x/1, t·x²/(1·2), … in fixed point: from term `k`, while `fuel` lasts. -/
def expTerms (x : Nat) : Nat → Nat → Nat → Nat
  | 0, _, _ => 0
  | fuel + 1, k, t => t + expTerms x fuel (k + 1) (t * x / fxOne / (k + 1))

/-- e^x for a fixed-point x in 0 ≤ x < 1, as a fixed-point number. -/
def fxExp (x : Nat) : Nat := expTerms x 64 0 fxOne

/-- e^y for a fixed-point integer y: mantissa in [1, 2) and exponent. -/
def fxExpInt (y : Int) : Nat × Int :=
  let n := y / (fxLn2 : Int)
  (fxExp (y - n * fxLn2).toNat, n)

/-- sum of (-1)^k x^(2k+p)/(2k+p)!, from `t` = the first term. -/
def trigTerms (x2 : Nat) : Nat → Nat → Nat → Int
  | 0, _, _ => 0
  | fuel + 1, k, t => (t : Int) - trigTerms x2 fuel (k + 2) (t * x2 / fxOne / (k * (k + 1)))

/-- sin and cos of a fixed-point x in 0 ≤ x ≤ π/4. -/
def fxSin (x : Nat) : Nat := (trigTerms (x * x / fxOne) 40 2 x).toNat
def fxCos (x : Nat) : Nat := (trigTerms (x * x / fxOne) 40 1 fxOne).toNat

/-- z + z³/3 + z⁵/5 + …: the inverse hyperbolic tangent of a fixed-point z in absolute value at most 1/5. -/
def atanhTerms (z2 : Int) : Nat → Nat → Int → Int
  | 0, _, _ => 0
  | fuel + 1, k, t => t / (k : Int) + atanhTerms z2 fuel (k + 2) (t * z2 / (fxOne : Int))

/-- ln x for x = m / 2^25, x between 3/4 and 3/2, in fixed point. -/
def fxLn (m : Nat) : Int :=
  let num : Int := ((m : Int) - 33554432) * fxOne
  let z := num / ((m : Int) + 33554432)
  2 * atanhTerms (z * z / (fxOne : Int)) 100 1 z

/-- Integer square root: the bits from `k` down. -/
def isqrtBits (n : Nat) : Nat → Nat → Nat
  | 0, r => r
  | k + 1, r =>
    let c := r + 2 ^ k
    isqrtBits n k (if c * c ≤ n then c else r)

def isqrt (n : Nat) : Nat := isqrtBits n (Nat.log2 n / 2 + 1) 0

/-- A fixed-point magnitude known to a few units of its last place and never exact, as a value. -/
def fxVal (neg : Bool) (m : Nat) (e : Int) : Fl := .fin neg (2 * m + 1) (e - 257)

/-- The exact square root of a positive finite value, with a sticky bit. -/
def flSqrt (m : Nat) (e : Int) : Fl :=
  let sh : Nat := 128 + (if e % 2 = 0 then 0 else 1)
  let n := m * 2 ^ sh
  let r := isqrt n
  .fin false (2 * r + (if r * r = n then 0 else 1)) ((e - sh) / 2 - 1)

/-- A finite value in fixed point, exact for every FP32 value of magnitude below 2^64. -/
def toFx (neg : Bool) (m : Nat) (e : Int) : Int :=
  let a : Int := (m * 2 ^ (e + 256).toNat : Nat)
  if neg then -a else a

/-- Sine of π times a fixed-point r in 0 ≤ r ≤ 1/2. -/
def fxSinPi (r : Nat) : Nat :=
  if 4 * r ≤ fxOne then fxSin (r * fxPi / fxOne) else fxCos ((fxOne / 2 - r) * fxPi / fxOne)

inductive SfuFn where
  | rcp | rsq | sqrt | exp2 | log2 | sinpi | cospi | tanh | sigm
deriving DecidableEq, Repr

/-- The exact value of a function with one operand, with the special cases of R120. -/
def SfuFn.value (fn : SfuFn) (a : Fl) : Fl :=
  match a with
  | .nan => .nan
  | .inf neg =>
    match fn with
    | .rcp => .fin neg 0 0
    | .rsq => if neg then .nan else .fin false 0 0
    | .sqrt => if neg then .nan else .inf false
    | .exp2 => if neg then .fin false 0 0 else .inf false
    | .log2 => if neg then .nan else .inf false
    | .sinpi => .nan
    | .cospi => .nan
    | .tanh => .fin neg 1 0
    | .sigm => if neg then .fin false 0 0 else .fin false 1 0
  | .fin neg 0 _ =>
    match fn with
    | .rcp => .inf neg
    | .rsq => .inf neg
    | .sqrt => .fin neg 0 0
    | .exp2 => .fin false 1 0
    | .log2 => .inf true
    | .sinpi => .fin neg 0 0
    | .cospi => .fin false 1 0
    | .tanh => .fin neg 0 0
    | .sigm => .fin false 1 (-1)
  | .fin neg m e =>
    match fn with
    | .rcp => Fl.quot (.fin false 1 0) (.fin neg m e)
    | .rsq =>
      if neg then .nan
      else
        match flSqrt m e with
        | .fin _ r k =>
          -- the root is exact, or irrational with 128 bits and a sticky bit
          Fl.quot (.fin false 1 0) (.fin false r k)
        | x => x
    | .sqrt => if neg then .nan else flSqrt m e
    | .exp2 =>
      if 8 ≤ (Nat.log2 m : Int) + e then (if neg then .fin false 0 0 else .inf false)
      else
        let x := toFx neg m e
        let n := x / (fxOne : Int)
        let f := (x - n * fxOne).toNat
        if f = 0 then .fin false 1 n else fxVal false (fxExp (f * fxLn2 / fxOne)) n
    | .log2 =>
      if neg then .nan
      else
        let k := Nat.log2 m
        let top : Int := (k : Int) + e
        let x := if k ≤ 24 then m * 2 ^ (24 - k) else m / 2 ^ (k - 24)
        if x = 16777216 then Fl.ofInt top
        else
          -- x / 2^24 in [1, 2), halved above 3/2
          let (x2, t2) := if x > 25165824 then (x, top + 1) else (2 * x, top)
          let y : Int := t2 * fxOne + fxLn x2 * (fxOne : Int) / (fxLn2 : Int)
          fxVal (decide (y < 0)) y.natAbs 0
    | .sinpi =>
      if 22 ≤ (Nat.log2 m : Int) + e ∧ 0 ≤ e then .fin neg 0 0
      else
        let x := (toFx false m e).toNat
        let n := x / fxOne
        let r := x % fxOne
        let sg := xor neg (n % 2 == 1)
        if r = 0 then .fin neg 0 0
        else if 2 * r = fxOne then .fin sg 1 0
        else fxVal sg (fxSinPi (if 2 * r < fxOne then r else fxOne - r)) 0
    | .cospi =>
      if 24 ≤ (Nat.log2 m : Int) + e then .fin false 1 0
      else
        let x := (toFx false m e).toNat
        let n := x / fxOne
        let r := x % fxOne
        if r = 0 then .fin (n % 2 == 1) 1 0
        else if 2 * r = fxOne then .fin false 0 0
        else
          let up := decide (fxOne < 2 * r)
          fxVal (xor (n % 2 == 1) up) (fxSinPi (if up then r - fxOne / 2 else fxOne / 2 - r)) 0
    | .tanh =>
      if 4 ≤ (Nat.log2 m : Int) + e then .fin neg (2 ^ 64 - 1) (-64)
      else if (Nat.log2 m : Int) + e < -20 then
        .fin neg (m * 2 ^ 64 - 1) (e - 64)
      else
        let (x, n) := fxExpInt (2 * toFx false m e)
        let p := x * 2 ^ n.toNat
        fxVal neg ((p - fxOne) * fxOne / (p + fxOne)) 0
    | .sigm =>
      if 8 ≤ (Nat.log2 m : Int) + e then (if neg then .fin false 1 (-300) else .fin false (2 ^ 64 - 1) (-64))
      else
        let (x, n) := fxExpInt (toFx false m e)
        let p := x * 2 ^ n.toNat
        -- e^|a|: the result is p/(p+1), or 1/(p+1) for a negative operand
        if neg then
          let q := 2 ^ 900 / (p + fxOne)
          .fin false (2 * q + 1) (256 - 900 - 1)
        else fxVal false (p * fxOne / (p + fxOne)) 0

/-- A special function of an FP32 code: one rounding from the exact value under RNE, with the flush flag (R78,
R119). -/
def SfuFn.apply (fn : SfuFn) (flush : Bool) (c : Word) : Word :=
  w32 (fp32.output flush .rne (fn.value (fp32.input flush c.toNat)))

/-- `DIVF` (R118, R120). -/
def divf (flush : Bool) (a b : Word) : Word :=
  w32 (fp32.output flush .rne (Fl.quot (fp32.input flush a.toNat) (fp32.input flush b.toNat)))

/-- Correctly rounded square root and quotient of FP32 codes (R270, R274). -/
def sqrtRn (a : Word) : Word := rn (SfuFn.value .sqrt (f32 a))
def divRn (a b : Word) : Word := rn (Fl.quot (f32 a) (f32 b))

end Sys2Proof.Machine
end

