-- ==== Sys2Proof/Machine/SfuFam.lean ====
section
/-! DEFINITION. The special-function family (spec/05 R97, R98, R118 to R121): long-latency instructions whose results
are written 14 clocks after issue. -/

namespace Sys2Proof.Machine

/-- Issue a special function: the unit is taken for 4 clocks and the result is in flight until clock c + 14 (R97). It counts as
outstanding for every thread of the set (R98), a guard-false lane and a result that `nw` discards included (assumption 49). -/
def Desc.sfu (d : Desc) (s : State) : Res :=
  s.guardedRun d.shape
    (let q := s.quad s.iss.quad
     let f := s.flightOf .sfu s.iss.mask (s.iss.clk + 14) true (d.flightWrites s.iw s.iss)
     let s := (s.setQuad s.iss.quad { q with sfuFree := s.iss.clk + 4 }).launchFlight f
     s.setIw (s.iw.advance s.iss))

def sfu1 (h : Hdr) (d : Dst) (a : Opd) (fn : SfuFn) : Desc :=
  Desc.one h (.reg d false) (a, .f32) (fun fl x => zx (fn.apply fl (lo32 x)))
def divfDesc (h : Hdr) (d : Dst) (a b : Opd) : Desc :=
  Desc.two h (.reg d false) (a, .f32) (b, .f32) (fun fl x y => zx (Machine.divf fl (lo32 x) (lo32 y)))

/-- `RCP` (R118 to R120). -/
def execRcp (h : Hdr) (d : Dst) (a : Opd) (s : State) : Res :=
  (sfu1 h d a .rcp).sfu s

/-- `RSQ` (R118 to R120). -/
def execRsq (h : Hdr) (d : Dst) (a : Opd) (s : State) : Res :=
  (sfu1 h d a .rsq).sfu s

/-- `SQRT` (R118 to R120). -/
def execSqrt (h : Hdr) (d : Dst) (a : Opd) (s : State) : Res :=
  (sfu1 h d a .sqrt).sfu s

/-- `EXP2` (R118 to R120). -/
def execExp2 (h : Hdr) (d : Dst) (a : Opd) (s : State) : Res :=
  (sfu1 h d a .exp2).sfu s

/-- `LOG2` (R118 to R120). -/
def execLog2 (h : Hdr) (d : Dst) (a : Opd) (s : State) : Res :=
  (sfu1 h d a .log2).sfu s

/-- `SINPI` (R118 to R120). -/
def execSinpi (h : Hdr) (d : Dst) (a : Opd) (s : State) : Res :=
  (sfu1 h d a .sinpi).sfu s

/-- `COSPI` (R118 to R120). -/
def execCospi (h : Hdr) (d : Dst) (a : Opd) (s : State) : Res :=
  (sfu1 h d a .cospi).sfu s

/-- `TANH` (R118 to R120). -/
def execTanh (h : Hdr) (d : Dst) (a : Opd) (s : State) : Res :=
  (sfu1 h d a .tanh).sfu s

/-- `SIGM` (R118 to R120). -/
def execSigm (h : Hdr) (d : Dst) (a : Opd) (s : State) : Res :=
  (sfu1 h d a .sigm).sfu s

/-- `DIVF` (R118 to R120). -/
def execDivf (h : Hdr) (d : Dst) (a b : Opd) (s : State) : Res :=
  (divfDesc h d a b).sfu s

/-- `SFU_RESULT`: the results of an operation in flight are written and its registers are free (R97). -/
def dueSfuResult (id : Nat) (s : State) : Option State :=
  match s.flight? id .sfu with
  | none => none
  | some f =>
    if s.ripe f then some (((s.setWarp f.gw (f.writes.foldl Warp.applyW (s.warp f.gw))).dropFlight id).landShadow f)
    else none

/-- `SFU_RESULT`: as `dueSfuResult` has it; while the event is not due it does not take place, and nothing changes (assumption 14). -/
def execSfuResult (id : Nat) (s : State) : Res :=
  State.after s (dueSfuResult id s)

end Sys2Proof.Machine
end

