-- ==== Sys2Proof/Machine/Compact.lean ====
section
/-! DEFINITION. The compact forms (spec/03 R67 to R70): each is the instruction it abbreviates, unguarded, with its
operands expanded by R68. -/

namespace Sys2Proof.Machine

/-- Compact `ADD` (R69, R101). -/
def execAddC (d : Dst8) (a b : Opd8) (s : State) : Res :=
  (int2 hdrC .w32 d.expand a.expand b.expand addW).run s

/-- Compact `SUB` (R69, R101). -/
def execSubC (d : Dst8) (a b : Opd8) (s : State) : Res :=
  (int2 hdrC .w32 d.expand a.expand b.expand subW).run s

/-- Compact `MUL` (R69, R101). -/
def execMulC (d : Dst8) (a b : Opd8) (s : State) : Res :=
  (int2 hdrC .w32 d.expand a.expand b.expand mulW).run s

/-- Compact `MULH` (R69, R101). -/
def execMulhC (d : Dst8) (a b : Opd8) (s : State) : Res :=
  (int2 hdrC .w32 d.expand a.expand b.expand mulhW).run s

/-- Compact `MULHN` (R69, R101). -/
def execMulhnC (d : Dst8) (a b : Opd8) (s : State) : Res :=
  (int2 hdrC .w32 d.expand a.expand b.expand mulhnW).run s

/-- Compact `MIN` (R69, R101). -/
def execMinC (d : Dst8) (a b : Opd8) (s : State) : Res :=
  (int2 hdrC .w32 d.expand a.expand b.expand minW).run s

/-- Compact `MAX` (R69, R101). -/
def execMaxC (d : Dst8) (a b : Opd8) (s : State) : Res :=
  (int2 hdrC .w32 d.expand a.expand b.expand maxW).run s

/-- Compact `MINN` (R69, R101). -/
def execMinnC (d : Dst8) (a b : Opd8) (s : State) : Res :=
  (int2 hdrC .w32 d.expand a.expand b.expand minnW).run s

/-- Compact `MAXN` (R69, R101). -/
def execMaxnC (d : Dst8) (a b : Opd8) (s : State) : Res :=
  (int2 hdrC .w32 d.expand a.expand b.expand maxnW).run s

/-- Compact `AND` (R69, R101). -/
def execAndC (d : Dst8) (a b : Opd8) (s : State) : Res :=
  (int2 hdrC .w32 d.expand a.expand b.expand andW).run s

/-- Compact `OR` (R69, R101). -/
def execOrC (d : Dst8) (a b : Opd8) (s : State) : Res :=
  (int2 hdrC .w32 d.expand a.expand b.expand orW).run s

/-- Compact `XOR` (R69, R101). -/
def execXorC (d : Dst8) (a b : Opd8) (s : State) : Res :=
  (int2 hdrC .w32 d.expand a.expand b.expand xorW).run s

/-- Compact `ANDN` (R69, R101). -/
def execAndnC (d : Dst8) (a b : Opd8) (s : State) : Res :=
  (int2 hdrC .w32 d.expand a.expand b.expand andnW).run s

/-- Compact `SHL` (R69, R103). -/
def execShlC (d : Dst8) (a b : Opd8) (s : State) : Res :=
  (intSh hdrC .w32 d.expand a.expand b.expand shlW).run s

/-- Compact `SHR` (R69, R103). -/
def execShrC (d : Dst8) (a b : Opd8) (s : State) : Res :=
  (intSh hdrC .w32 d.expand a.expand b.expand shrW).run s

/-- Compact `SAR` (R69, R103). -/
def execSarC (d : Dst8) (a b : Opd8) (s : State) : Res :=
  (intSh hdrC .w32 d.expand a.expand b.expand sarW).run s

/-- Compact `ROL` (R69, R103). -/
def execRolC (d : Dst8) (a b : Opd8) (s : State) : Res :=
  (intSh hdrC .w32 d.expand a.expand b.expand rolW).run s

/-- Compact `ROR` (R69, R103). -/
def execRorC (d : Dst8) (a b : Opd8) (s : State) : Res :=
  (intSh hdrC .w32 d.expand a.expand b.expand rorW).run s

/-- Compact 64-bit `ADD` (R69, R101). -/
def execAdd64C (d : Dst8) (a b : Opd8) (s : State) : Res :=
  (int2 hdrC .w64 d.expand a.expand b.expand addW).run s

/-- Compact 64-bit `SUB` (R69, R101). -/
def execSub64C (d : Dst8) (a b : Opd8) (s : State) : Res :=
  (int2 hdrC .w64 d.expand a.expand b.expand subW).run s

/-- Compact `MOV` (R69, R107). -/
def execMovC (d : Dst8) (a : Opd8) (s : State) : Res :=
  (int1 hdrC .w32 d.expand a.expand trunc).run s

/-- Compact 64-bit `MOV` (R69, R107). -/
def execMov64C (d : Dst8) (a : Opd8) (s : State) : Res :=
  (int1 hdrC .w64 d.expand a.expand trunc).run s

/-- Compact `NEG` (R69, R107). -/
def execNegC (d : Dst8) (a : Opd8) (s : State) : Res :=
  (int1 hdrC .w32 d.expand a.expand negW).run s

/-- Compact `NOT` (R69, R107). -/
def execNotC (d : Dst8) (a : Opd8) (s : State) : Res :=
  (int1 hdrC .w32 d.expand a.expand notW).run s

/-- Compact `POPC` (R69, R107). -/
def execPopcC (d : Dst8) (a : Opd8) (s : State) : Res :=
  (int1 hdrC .w32 d.expand a.expand popcW).run s

/-- Compact `CLZ` (R69, R107). -/
def execClzC (d : Dst8) (a : Opd8) (s : State) : Res :=
  (int1 hdrC .w32 d.expand a.expand clzW).run s

/-- Compact `CTZ` (R69, R107). -/
def execCtzC (d : Dst8) (a : Opd8) (s : State) : Res :=
  (int1 hdrC .w32 d.expand a.expand ctzW).run s

/-- Compact `SEXT8` (R69, R107). -/
def execSext8C (d : Dst8) (a : Opd8) (s : State) : Res :=
  (int1 hdrC .w32 d.expand a.expand sext8W).run s

/-- Compact `SEXT16` (R69, R107). -/
def execSext16C (d : Dst8) (a : Opd8) (s : State) : Res :=
  (int1 hdrC .w32 d.expand a.expand sext16W).run s

/-- Compact `ZEXT8` (R69, R107). -/
def execZext8C (d : Dst8) (a : Opd8) (s : State) : Res :=
  (int1 hdrC .w32 d.expand a.expand (fun _ => zext8W)).run s

/-- Compact `ZEXT16` (R69, R107). -/
def execZext16C (d : Dst8) (a : Opd8) (s : State) : Res :=
  (int1 hdrC .w32 d.expand a.expand (fun _ => zext16W)).run s

/-- Compact `FADD`, RNE (R69, R110). -/
def execFaddC (d : Dst8) (a b : Opd8) (s : State) : Res :=
  (fp2Desc hdrC d.expand a.expand b.expand (f2 .rne (exAdd .rne))).run s

/-- Compact `FSUB`, RNE (R69, R110). -/
def execFsubC (d : Dst8) (a b : Opd8) (s : State) : Res :=
  (fp2Desc hdrC d.expand a.expand b.expand (f2 .rne (exSub .rne))).run s

/-- Compact `FMUL`, RNE (R69, R110). -/
def execFmulC (d : Dst8) (a b : Opd8) (s : State) : Res :=
  (fp2Desc hdrC d.expand a.expand b.expand (f2 .rne Fl.mul)).run s

/-- Compact `FMIN` (R69, R112). -/
def execFminC (d : Dst8) (a b : Opd8) (s : State) : Res :=
  (fp2Desc hdrC d.expand a.expand b.expand (fun _ x y => BitVec.ofNat 64 (fp32.minmax false false (code32 x) (code32 y)))).run s

/-- Compact `FMAX` (R69, R112). -/
def execFmaxC (d : Dst8) (a b : Opd8) (s : State) : Res :=
  (fp2Desc hdrC d.expand a.expand b.expand (fun _ x y => BitVec.ofNat 64 (fp32.minmax true false (code32 x) (code32 y)))).run s

/-- Compact `FMINP` (R69, R112). -/
def execFminpC (d : Dst8) (a b : Opd8) (s : State) : Res :=
  (fp2Desc hdrC d.expand a.expand b.expand (fun _ x y => BitVec.ofNat 64 (fp32.minmax false true (code32 x) (code32 y)))).run s

/-- Compact `FMAXP` (R69, R112). -/
def execFmaxpC (d : Dst8) (a b : Opd8) (s : State) : Res :=
  (fp2Desc hdrC d.expand a.expand b.expand (fun _ x y => BitVec.ofNat 64 (fp32.minmax true true (code32 x) (code32 y)))).run s

/-- Compact `FSCALE`, RNE (R69, R111). -/
def execFscaleC (d : Dst8) (a b : Opd8) (s : State) : Res :=
  (fscaleDesc hdrC .rne d.expand a.expand b.expand).run s

/-- Compact `HADD2.f16`, RNE (R69, R113). -/
def execHadd2F16C (d : Dst8) (a b : Opd8) (s : State) : Res :=
  (half2Desc hdrC .f16 d.expand a.expand b.expand (fp16.op2 .rne (exAdd .rne))).run s

/-- Compact `HSUB2.f16`, RNE (R69, R113). -/
def execHsub2F16C (d : Dst8) (a b : Opd8) (s : State) : Res :=
  (half2Desc hdrC .f16 d.expand a.expand b.expand (fp16.op2 .rne (exSub .rne))).run s

/-- Compact `HMUL2.f16`, RNE (R69, R113). -/
def execHmul2F16C (d : Dst8) (a b : Opd8) (s : State) : Res :=
  (half2Desc hdrC .f16 d.expand a.expand b.expand (fp16.op2 .rne Fl.mul)).run s

/-- Compact `HADD2.bf16`, RNE (R69, R113). -/
def execHadd2Bf16C (d : Dst8) (a b : Opd8) (s : State) : Res :=
  (half2Desc hdrC .bf16 d.expand a.expand b.expand (bfp16.op2 .rne (exAdd .rne))).run s

/-- Compact `HSUB2.bf16`, RNE (R69, R113). -/
def execHsub2Bf16C (d : Dst8) (a b : Opd8) (s : State) : Res :=
  (half2Desc hdrC .bf16 d.expand a.expand b.expand (bfp16.op2 .rne (exSub .rne))).run s

/-- Compact `HMUL2.bf16`, RNE (R69, R113). -/
def execHmul2Bf16C (d : Dst8) (a b : Opd8) (s : State) : Res :=
  (half2Desc hdrC .bf16 d.expand a.expand b.expand (bfp16.op2 .rne Fl.mul)).run s

/-- Compact `FABS` (R69, R115). -/
def execFabsC (d : Dst8) (a : Opd8) (s : State) : Res :=
  (fp1Desc hdrC d.expand a.expand Machine.fabsC).run s

/-- Compact `FNEG` (R69, R115). -/
def execFnegC (d : Dst8) (a : Opd8) (s : State) : Res :=
  (fp1Desc hdrC d.expand a.expand Machine.fnegC).run s

/-- Compact `RCP` (R69, R118). -/
def execRcpC (d : Dst8) (a : Opd8) (s : State) : Res :=
  (sfu1 hdrC d.expand a.expand .rcp).sfu s

/-- Compact `RSQ` (R69, R118). -/
def execRsqC (d : Dst8) (a : Opd8) (s : State) : Res :=
  (sfu1 hdrC d.expand a.expand .rsq).sfu s

/-- Compact `SQRT` (R69, R118). -/
def execSqrtC (d : Dst8) (a : Opd8) (s : State) : Res :=
  (sfu1 hdrC d.expand a.expand .sqrt).sfu s

/-- Compact `EXP2` (R69, R118). -/
def execExp2C (d : Dst8) (a : Opd8) (s : State) : Res :=
  (sfu1 hdrC d.expand a.expand .exp2).sfu s

/-- Compact `LOG2` (R69, R118). -/
def execLog2C (d : Dst8) (a : Opd8) (s : State) : Res :=
  (sfu1 hdrC d.expand a.expand .log2).sfu s

/-- Compact `TANH` (R69, R118). -/
def execTanhC (d : Dst8) (a : Opd8) (s : State) : Res :=
  (sfu1 hdrC d.expand a.expand .tanh).sfu s

/-- Compact `SIGM` (R69, R118). -/
def execSigmC (d : Dst8) (a : Opd8) (s : State) : Res :=
  (sfu1 hdrC d.expand a.expand .sigm).sfu s

/-- Compact `DIVF` (R69, R118). -/
def execDivfC (d : Dst8) (a b : Opd8) (s : State) : Res :=
  (divfDesc hdrC d.expand a.expand b.expand).sfu s

/-- Compact `CVT.f32.i32`, RNE (R69, R117). -/
def execCvtF32I32C (d : Dst8) (a : Opd8) (s : State) : Res :=
  (cvtDesc hdrC .f32i32 .rne d.expand a.expand).run s

/-- Compact `CVT.i32.f32`, RNE (R69, R117). -/
def execCvtI32F32C (d : Dst8) (a : Opd8) (s : State) : Res :=
  (cvtDesc hdrC .i32f32 .rne d.expand a.expand).run s

/-- Compact `CVT.f32.f16`, RNE (R69, R117). -/
def execCvtF32F16C (d : Dst8) (a : Opd8) (s : State) : Res :=
  (cvtDesc hdrC .f32f16 .rne d.expand a.expand).run s

/-- Compact `CVT.f16.f32`, RNE (R69, R117). -/
def execCvtF16F32C (d : Dst8) (a : Opd8) (s : State) : Res :=
  (cvtDesc hdrC .f16f32 .rne d.expand a.expand).run s

/-- Compact `SHFL.idx` (R69, R148). -/
def execShflIdxC (d : Dst8) (a b : Opd8) (s : State) : Res :=
  (shflDesc hdrC .idx .w32 d.expand a.expand b.expand).run s

/-- Compact `SHFL.xor` (R69, R148). -/
def execShflXorC (d : Dst8) (a b : Opd8) (s : State) : Res :=
  (shflDesc hdrC .xor .w32 d.expand a.expand b.expand).run s

/-- Compact `BRA` (R70, R126). -/
def execBraC (off : BitVec 24) (s : State) : Res :=
  s.guardedRun (Shape.plain hdrC.guard)
    (s.branchTo (s.iw.guarded s.iss.mask hdrC.guard) (fun _ => braTarget s.iss (off.signExtend 64)))

end Sys2Proof.Machine
end

