-- ==== Sys2Proof/Machine/Tag.lean ====
section
/-! DEFINITION. The TAG family (spec/08 R201 to R204) and `TAGQ_RESULT`. -/

namespace Sys2Proof.Machine

/-- First entry and number of entries of the share of the issuing quadrant's bank set (R175). -/
def State.tagShare (s : State) : Nat × Nat :=
  let b := s.setOf (coreOfQuad s.iss.quad) (s.iss.quad % 4)
  (4 * b.1, 4 * b.2)

/-- The slots a parcel has declared, within the share (R331). -/
def State.tagRange (s : State) : Nat × Nat :=
  let w := s.iw
  match s.parcel? w.vdev w.lseq w.pseq with
  | none => (0, 0)
  | some p => (p.tbase, p.tbase + p.tcount)

/-- A slot beyond the share or outside the declared range (R202). -/
def State.tagOut (s : State) (slot : Nat) : Bool :=
  !(decide (slot < s.tagShare.2) && decide (s.tagRange.1 ≤ slot) && decide (slot < s.tagRange.2))

/-- The table serves one instruction at a time, 8 lanes in a clock: the state with the table taken, and the last service
clock as the issuing quadrant counts (R204). -/
def State.tagServe (s : State) (n : Nat) : State × Nat :=
  let c := coreOfQuad s.iss.quad
  let x := s.core c
  let fin := max s.round x.tagFree + ceilDiv n 8
  (s.setCore c { x with tagFree := fin }, s.iss.clk + (fin - 1 - s.round))

/-- The answer to a lookup: payload and lowest matching slot, or the miss code (R203). -/
def tagLook (tags : NMap Dword) (base n : Nat) (key : Word) : Word :=
  match (List.range n).find? (fun k =>
      let e := NMap.get 0 tags (base + k)
      e.getLsbD 63 && field e 47 16 == key.toNat) with
  | some k => BitVec.ofNat 32 (field (NMap.get 0 tags (base + k)) 15 0 * 65536 + k)
  | none => 0xFFFF

/-- A lookup of every lane, as a register result. -/
def tagqDesc (h : Hdr) (d : Dst) (a : Opd) (tags : NMap Dword) (base n : Nat) : Desc :=
  { guard := h.guard, lit := h.lit, srcs := [(a, .i32)], tgt := .reg d false, xlane := false,
    fn := fun _ _ xs _ l => zx (tagLook tags base n (lo32 ((xs l).getD 0 0))) }

/-- The desc of a lookup under the issuing quadrant's share. -/
def State.tagq (s : State) (h : Hdr) (d : Dst) (a : Opd) : Desc :=
  tagqDesc h d a (s.core (coreOfQuad s.iss.quad)).tags s.tagShare.1 s.tagShare.2

/-- `TAGQ` (R203): long-latency. A uniform destination has one lane served (R204; assumption 49). -/
def execTagq (h : Hdr) (d : Dst) (a : Opd) (s : State) : Res :=
  let g := d.lanes s.iss.mask (s.iw.guarded s.iss.mask h.guard)
  s.guardedRun (s.tagq h d a).shape
    (if g = 0 then s.setIw (s.iw.advance s.iss)
     else
       let r := s.tagServe (laneCount g)
       let f := r.1.flightOf .tagq g (r.2 + 2) true ((s.tagq h d a).flightWrites s.iw s.iss)
       (r.1.launchFlight f).pastBut 0)

/-- Change the slots that lanes name, in ascending lane order, so that the higher lane's effect stands (R204). Lanes that pass
are performed (R207), and they alone count for the service time (R204; assumption 49). -/
def State.tagWrite (s : State) (g : Mask) (slot : Nat → Nat) (upd : Nat → Dword → Dword) : State :=
  let bad := maskOf (fun l => hasLane g l && s.tagOut (slot l))
  let good := if s.iw.wide && bad != 0 then 0 else g &&& ~~~ bad
  let c := coreOfQuad s.iss.quad
  let t := if good = 0 then s else (s.tagServe (laneCount good)).1
  let x := t.core c
  let tags := (laneList good).foldl (fun n l =>
    let k := s.tagShare.1 + slot l
    NMap.set 0 n k (upd l (NMap.get 0 n k))) x.tags
  ((t.setCore c { x with tags := tags }).pastBut bad).takeAll (excIf 0x0D bad)

/-- A valid entry (R201). -/
def tagEntry (key payload : Word) : Dword := BitVec.ofNat 64 (2 ^ 63 + key.toNat * 65536 + payload.toNat % 65536)

/-- `TAGI` (R202). -/
def execTagi (h : Hdr) (a b c : Opd) (s : State) : Res :=
  let w := s.iw
  let v (o : Opd) (l : Nat) : Word := lo32 (o.val w s.iss h.lit l .i32)
  s.guardedRun (Shape.reading h.guard [(a, 1), (b, 1), (c, 1)])
    (s.tagWrite (w.guarded s.iss.mask h.guard) (fun l => (v a l).toNat) (fun l _ => tagEntry (v b l) (v c l)))

/-- `TAGX` (R202). -/
def execTagx (h : Hdr) (a : Opd) (s : State) : Res :=
  let w := s.iw
  s.guardedRun (Shape.reading h.guard [(a, 1)])
    (s.tagWrite (w.guarded s.iss.mask h.guard) (fun l => (lo32 (a.val w s.iss h.lit l .i32)).toNat)
      (fun _ e => e &&& ~~~ ((1 : Dword) <<< 63)))

/-- `TAGQ_RESULT`: the answer is written, 2 clocks after the last lookup (R204). -/
def dueTagqResult (id : Nat) (s : State) : Option State :=
  match s.flight? id .tagq with
  | none => none
  | some f => if s.ripe f then some (s.land f) else none

/-- `TAGQ_RESULT`: as `dueTagqResult` has it; while the event is not due it does not take place, and nothing changes (assumption 14). -/
def execTagqResult (id : Nat) (s : State) : Res :=
  State.after s (dueTagqResult id s)

end Sys2Proof.Machine
end

