-- ==== Sys2Proof/Machine/Closure.lean ====
section
/-! DEFINITION. The CLOSURE family (spec/14 R292 to R305): barrier objects in a tract's scratchpads, and
`CLOSURE_OPERATION_PERFORMED`. -/

namespace Sys2Proof.Machine

/-! ### The closure object (R292, R294) -/

def cloExp (d0 : Dword) : Nat := field d0 63 48
def cloPend (d0 : Dword) : Nat := field d0 47 0
def cloV (d1 : Dword) : Bool := d1.getLsbD 23
def cloPh (d1 : Dword) : Bool := d1.getLsbD 16
def cloArr (d1 : Dword) : Nat := field d1 15 0

/-- Not initialised, or with no expected count: `BAD_CLOSURE` (R295). -/
def cloBad (d0 d1 : Dword) : Bool := !(cloV d1) || cloExp d0 == 0

def mkD0 (exp pend : Nat) : Dword := BitVec.ofNat 64 (exp * 2 ^ 48 + pend % 2 ^ 48)

/-- Dword 1 with a new phase bit and count; its other bits stay. -/
def withPhArr (d1 : Dword) (ph : Bool) (arr : Nat) : Dword :=
  BitVec.ofNat 64 (field d1 63 17 * 2 ^ 17 + (if ph then 2 ^ 16 else 0) + arr % 2 ^ 16)

def State.cloD0 (s : State) (k : Nat) : Dword := BitVec.ofNat 64 (s.rd k 8)
def State.cloD1 (s : State) (k : Nat) : Dword := BitVec.ofNat 64 (s.rd (k + 8) 8)

/-- Phase completion at the home (R294): every phase that can complete does, and the first releases the waiters. -/
def State.cloSettle (s : State) (k : Nat) : State :=
  let d0 := s.cloD0 k
  let d1 := s.cloD1 k
  if !(cloBad d0 d1) && decide (cloExp d0 ≤ cloArr d1) && cloPend d0 == 0 then
    let n := cloArr d1 / cloExp d0
    let d1' := withPhArr d1 (Bool.xor (cloPh d1) (n % 2 == 1)) (cloArr d1 % cloExp d0)
    (s.wr (k + 8) 8 d1'.toNat).wakeClosure k
  else s

/-- Write dword 0 or 1, then settle. -/
def State.cloSetD0 (s : State) (k : Nat) (d : Dword) : State := (s.wr k 8 d.toNat).cloSettle k
def State.cloSetD1 (s : State) (k : Nat) (d : Dword) : State := (s.wr (k + 8) 8 d.toNat).cloSettle k

/-- `PEND` less a number of bytes (R315). -/
def State.cloSubtract (s : State) (k n : Nat) : State :=
  let d0 := s.cloD0 k
  s.cloSetD0 k (mkD0 (cloExp d0) (cloPend d0 + (2 ^ 48 - n % 2 ^ 48)))

/-! ### Addresses (R297) -/

/-- Core and offset that t names under an address form. -/
def State.tractPlace (s : State) (x : Bool) (t : Nat) : Option (Nat × Nat) :=
  let core := coreOfQuad s.iss.quad
  if x then
    if bits t 31 25 ≠ 0 then none else some (tractOfCore core * 4 + bits t 24 23, bits t 22 0)
  else if 2 ^ 23 ≤ t then none
  else some (core, t)

/-- The memory key of `n` bytes at t, inside the tenant's bank set and the parcel's extent. -/
def State.tractKey (s : State) (x : Bool) (t n : Nat) : Option Nat :=
  match s.tractPlace x t with
  | none => none
  | some (c, off) => s.scratch s.iw c off n

/-! ### The operations at the home -/

/-- The first fault of a closure operation, else its memory key. -/
def State.cloKey (s : State) (r : CloReq) : Except Byte Nat :=
  match s.tractKey r.x r.t 16 with
  | none => .error 0x0D
  | some k => if r.t % 16 ≠ 0 then .error 0x0C else .ok k

/-- Descriptor of `BINIT` that is no closure (R298). -/
def badInit (c : Word) : Bool := bits c.toNat 15 0 == 0 || bits c.toNat 18 16 == 7 || bits c.toNat 31 19 != 0

/-- A closure operation of the issuing set, performed at a home that its address checks have found (R298 to R303). -/
def State.cloAt (s : State) (r : CloReq) (k : Nat) : State :=
  let d0 := s.cloD0 k
  let d1 := s.cloD1 k
  let bad (s : State) : State := s.take (Exc.of 0x26 r.g)
  match r.op with
  | .init c =>
    if badInit c then bad s
    else
      let s := s.wr k 8 (mkD0 (bits c.toNat 15 0) 0).toNat
      (s.wr (k + 8) 8 (2 ^ 23 + bits c.toNat 18 16 * 2 ^ 20)).sealNext
  | .expect c =>
    if cloBad d0 d1 then bad s else (s.cloSetD0 k (mkD0 (cloExp d0) (cloPend d0 + c.toNat))).sealNext
  | .arrive =>
    let n := cloArr d1 + laneCount r.g
    if cloBad d0 d1 || decide (65535 < n) then bad s
    else (s.sealNext).cloSetD1 k (withPhArr d1 (cloPh d1) n)
  | .wait par =>
    if cloBad d0 d1 then bad s
    else s.sealBlock (if cloPh d1 then r.g &&& par else r.g &&& ~~~ par) (.bwait k s.iss.words)
  | .test pd par =>
    if cloBad d0 d1 then bad s
    else (s.setIw (s.iw.setPredIn pd.toNat r.g (if cloPh d1 then ~~~ par else par))).pastBut 0

/-- Perform a closure operation: its faults are precise and act for all guard-true lanes (R297, R321). -/
def State.cloPerform (s : State) (r : CloReq) : State :=
  match s.cloKey r with
  | .error c => s.take (Exc.of c r.g)
  | .ok k =>
    match s.meetRead k 16 with
    | .error c => s.take (Exc.of c r.g)
    | .ok s => s.cloAt r k

/-- The home lies in a core that a resurvey drain keeps closed (R351). -/
def State.cloClosed (s : State) (r : CloReq) : Bool :=
  match s.tractPlace r.x r.t with
  | some (c, _) => (s.core c).survey != .none
  | none => false

/-- An arrival is a release: the accesses of the arriving threads are performed first (R304). -/
def State.cloHolds (s : State) (r : CloReq) : Bool :=
  match r.op with
  | .arrive => s.fencePending .rel s.iss.gw r.g
  | _ => false

/-- Issue a closure operation: its set stalls until the home has performed it (R297). -/
def State.cloIssue (s : State) (r : CloReq) : State :=
  if s.cloHolds r then s.waits 0
  else if s.cloClosed r then
    let s := s.waits s.nextId
    s.launchFlight { s.flightOf .closure s.iss.mask 0 false [] with clo := some r }
  else s.cloPerform r

/-- Build the request from the lowest guard-true lane; a set with no guard-true lane does nothing but seal (R297, R39). -/
def State.cloRun (s : State) (h : Hdr) (x : Bool) (a b : Opd) (seals : Bool) (op : Nat → Mask → CloOp) : State :=
  let w := s.iw
  let g := w.guarded s.iss.mask h.guard
  if g = 0 then (if seals then s.sealNext else s.pastBut 0)
  else
    let l := lowest g
    s.cloIssue { op := op l g, x := x, t := scrOff (a.val w s.iss h.lit l .i32) (b.val w s.iss h.lit l .i32), g := g }

/-- Bit 0 of a source, by lane. -/
def State.parities (s : State) (h : Hdr) (o : Opd) (g : Mask) : Mask :=
  maskOf (fun l => hasLane g l && (o.val s.iw s.iss h.lit l .i32).getLsbD 0)

/-- `BINIT` (R298). -/
def execBinit (h : Hdr) (x : Bool) (a b c : Opd) (s : State) : Res :=
  s.guardedRun (Shape.sealing h.guard [(a, 1), (b, 1), (c, 1)])
    (s.cloRun h x a b true (fun l _ => .init (lo32 (c.val s.iw s.iss h.lit l .i32))))

/-- `BEXP` (R299). -/
def execBexp (h : Hdr) (x : Bool) (a b c : Opd) (s : State) : Res :=
  s.guardedRun (Shape.sealing h.guard [(a, 1), (b, 1), (c, 1)])
    (s.cloRun h x a b true (fun l _ => .expect (lo32 (c.val s.iw s.iss h.lit l .i32))))

/-- `BARV` (R300). -/
def execBarv (h : Hdr) (x : Bool) (a b : Opd) (s : State) : Res :=
  s.guardedRun (Shape.sealing h.guard [(a, 1), (b, 1)]) (s.cloRun h x a b true (fun _ _ => .arrive))

/-- `BWAIT` (R301). -/
def execBwait (h : Hdr) (x : Bool) (a b par : Opd) (s : State) : Res :=
  s.guardedRun { Shape.sealing h.guard [(a, 1), (b, 1), (par, 1)] with blocks := true }
    (s.cloRun h x a b true (fun _ g => .wait (s.parities h par g)))

/-- `BTEST` (R303). -/
def execBtest (h : Hdr) (x : Bool) (pd : BitVec 3) (a b par : Opd) (s : State) : Res :=
  s.guardedRun (Shape.reading h.guard [(a, 1), (b, 1), (par, 1)])
    (s.cloRun h x a b false (fun _ g => .test pd (s.parities h par g)))

/-- `TRIG` (R305): the marks take effect once the threads' earlier accesses are performed. -/
def execTrig (h : Hdr) (s : State) : Res :=
  s.guardedRun (Shape.sealing h.guard [])
    (let g := s.iw.guarded s.iss.mask h.guard
     let s := s.setIw (s.iw.mapThreads g (fun _ t =>
       { t with trigAt := match t.trigAt with
          | some n => some n
          | none => some s.nextId }))
     s.sealNext.settleTrigs s.iss.gw)

/-- `CLOSURE_OPERATION_PERFORMED`: the home performs an operation that waited, and its set goes on (R297). -/
def dueClosureOperationPerformed (id : Nat) (s : State) : Option State :=
  match s.flight? id .closure with
  | none => none
  | some f =>
    match f.clo with
    | none => none
    | some r =>
      let now := s.iss
      let s := { s with iss := f.iss }
      if s.cloClosed r then none
      else some { (s.dropFlight id).cloPerform r with iss := now }

/-- `CLOSURE_OPERATION_PERFORMED`: as `dueClosureOperationPerformed` has it; while the event is not due it does not take place, and nothing changes (assumption 14). -/
def execClosureOperationPerformed (id : Nat) (s : State) : Res :=
  State.after s (dueClosureOperationPerformed id s)

end Sys2Proof.Machine
end

