-- ==== Sys2Proof/Machine/Tensor.lean ====
section
/-! DEFINITION. The tensor table (spec/12 R234 to R240): entries, handles, where an element lies, the bytes a region
spans, and reading and writing the tiles that lie in a tract's scratchpads (R248, R256). -/

namespace Sys2Proof.Machine

/-! ### Entries (R236, R237): the eight dwords as they stand -/

def entGen (e : List Dword) : Nat := field (e.getD 0 0) 63 44
def entV (e : List Dword) : Bool := (e.getD 0 0).getLsbD 43
def entRank (e : List Dword) : Nat := field (e.getD 0 0) 42 40
def entFmt (e : List Dword) : Nat := field (e.getD 0 0) 39 36
def entLoc (e : List Dword) : Nat := field (e.getD 0 0) 35 34
def entHad (e : List Dword) : Nat := field (e.getD 0 0) 33 32
def entT (e : List Dword) : Bool := (e.getD 0 0).getLsbD 31
def entSwm (e : List Dword) : Nat := field (e.getD 0 0) 30 28
def entSwp (e : List Dword) : Nat := field (e.getD 0 0) 27 23
def entBase (e : List Dword) : Dword := e.getD 1 0
def entScale (e : List Dword) : Dword := e.getD 2 0
def entSstr (e : List Dword) : Nat := field (e.getD 7 0) 63 32

/-- Size of dimension k. -/
def entDim (e : List Dword) (k : Nat) : Nat :=
  match k with
  | 0 => field (e.getD 3 0) 31 0
  | 1 => field (e.getD 3 0) 63 32
  | 2 => field (e.getD 4 0) 31 0
  | 3 => field (e.getD 4 0) 63 32
  | 4 => field (e.getD 5 0) 31 0
  | _ => 0

/-- Byte stride of dimension k, from 1. -/
def entStr (e : List Dword) (k : Nat) : Nat :=
  match k with
  | 1 => field (e.getD 5 0) 63 32
  | 2 => field (e.getD 6 0) 31 0
  | 3 => field (e.getD 6 0) 63 32
  | 4 => field (e.getD 7 0) 31 0
  | _ => 0

/-- Element size in half-bytes (R237). -/
def fmtHalves (fmt : Nat) : Nat :=
  match fmt with
  | 1 => 1
  | 4 | 5 => 4
  | 6 | 7 => 8
  | _ => 2

def entHalves (e : List Dword) : Nat := fmtHalves (entFmt e)
/-- Bytes that hold one element. -/
def entBytes (e : List Dword) : Nat := max 1 (entHalves e / 2)

/-- A place in the entry's memory: canonical, or inside a tract's 32 MiB (R237). -/
def placeOk (loc : Nat) (a : Dword) : Bool := if loc == 0 then canonical a else field a 63 25 == 0

/-- Well formed, `GEN` and `V` ignored (R237). -/
def entOk (e : List Dword) : Bool :=
  decide (entFmt e ≤ 8) && decide (entLoc e ≤ 1) && decide (entSwm e ≤ 1) &&
  (entSwm e == 0 || decide (7 ≤ entSwp e)) && decide (1 ≤ entRank e) && decide (entRank e ≤ 5) &&
  (List.range 5).all (fun k =>
    if k < entRank e then entDim e k != 0 else entDim e k == 0 && entStr e k == 0) &&
  placeOk (entLoc e) (entBase e) &&
  (if entFmt e ≤ 1 then placeOk (entLoc e) (entScale e) else entScale e == 0 && entSstr e == 0)

/-! ### The table (R235, R240) -/

/-- Memory key of a slot: `TTBASE` is an address of the HBM4E tier (assumption 12). -/
def Contract.slotKey (c : Contract) (slot : Nat) : Nat := tierKey 0 (c.ttbase.toNat + 64 * (slot % 4096))

/-- Dwords from a memory key. -/
def State.dwords (s : State) (k n : Nat) : List Dword := (List.range n).map (fun i => BitVec.ofNat 64 (s.rd (k + 8 * i) 8))

def State.entry (s : State) (vdev slot : Nat) : List Dword := s.dwords ((s.contract vdev).slotKey slot) 8

def State.setEntry (s : State) (vdev slot : Nat) (e : List Dword) : State :=
  s.setBytes ((s.contract vdev).slotKey slot) (dwordBytes e)

/-- The entry of a live handle (R240). -/
def State.live? (s : State) (vdev : Nat) (h : Word) : Option (List Dword) :=
  let e := s.entry vdev (bits h.toNat 11 0)
  if entV e && entGen e != 0 && entGen e == bits h.toNat 31 12 then some e else none

/-- An entry with another generation and valid bit; its reserved bits read 0 (R236). -/
def entWith (e : List Dword) (gen : Nat) (v : Bool) : List Dword :=
  BitVec.ofNat 64 (gen * 2 ^ 44 + b2n v * 2 ^ 43 + field (e.getD 0 0) 42 23 * 2 ^ 23) :: e.drop 1

/-- The generation after one (R242). -/
def nextGen (g : Nat) : Nat := if g + 1 = 2 ^ 20 then 1 else g + 1

/-! ### Where an element lies (R238) -/

/-- Byte offset of an element before the swizzle. -/
def elemOff (e : List Dword) (c0 : Nat) (cs : List Nat) : Nat :=
  c0 * entHalves e / 2 + ((List.range 4).map (fun k => cs.getD k 0 * entStr e (k + 1))).sum

/-- Its byte offset from `BASE`. -/
def elemAt (e : List Dword) (c0 : Nat) (cs : List Nat) : Nat := swizzle (entSwm e) (entSwp e) (elemOff e c0 cs)

/-- Some number of steps below each count makes up a distance: are `d` bytes a sum of strides? -/
def reach : List (Nat × Nat) → Nat → Bool
  | [], d => d == 0
  | (str, n) :: r, d =>
    if str = 0 then reach r d
    else (List.range (min n (d / str + 1))).any (fun k => reach r (d - k * str))

/-- Strides and counts of a box of elements, in bytes. A byte of RQ4 holds two elements. -/
def boxSteps (e : List Dword) (c0 n0 : Nat) (ns : List Nat) : List (Nat × Nat) :=
  (entBytes e, if entFmt e = 1 then (c0 + n0 - 1) / 2 - c0 / 2 + 1 else n0) ::
    (List.range 4).map (fun k => (entStr e (k + 1), ns.getD k 1))

/-- Lowest byte and one past the highest that a box of elements occupies, as offsets from `BASE` with the swizzle applied
(R312). The swizzle moves bytes within their 128-byte block only. -/
def boxSpan (e : List Dword) (c0 n0 : Nat) (cs ns : List Nat) : Nat × Nat :=
  let st := boxSteps e c0 n0 ns
  let o := elemOff e c0 cs
  let top := o + (st.map (fun x => x.1 * (x.2 - 1))).sum
  let sw (a : Nat) : Nat := swizzle (entSwm e) (entSwp e) a
  let lo := (List.range 128).foldl (fun m d =>
    if (o + d) / 128 = o / 128 ∧ o + d ≤ top ∧ reach st d then min m (sw (o + d)) else m) (sw o)
  let hi := (List.range 128).foldl (fun m d =>
    if o + d ≤ top ∧ (top - d) / 128 = top / 128 ∧ reach st d then max m (sw (top - d)) else m) (sw top)
  (lo, hi + entBytes e)

/-! ### Matrices in scratchpad (R239) -/

def entRows (e : List Dword) : Nat := if entT e then entDim e 0 else entDim e 1
def entCols (e : List Dword) : Nat := if entT e then entDim e 1 else entDim e 0

/-- Coordinates of row r, column c; a vector has one row. -/
def rcCoord (e : List Dword) (r c : Nat) : Nat × List Nat :=
  if entRank e = 1 then (c, []) else if entT e then (r, [c]) else (c, [r])

/-- The bytes that rows 0..R-1 and columns 0..C-1 span, as offsets from `BASE`. -/
def rcSpan (e : List Dword) (rows cols : Nat) : Nat × Nat :=
  if entRank e = 1 then boxSpan e 0 cols [] []
  else if entT e then boxSpan e 0 rows [] [cols] else boxSpan e 0 cols [] [rows]

/-- Core of the tract and offset that a scratchpad base names (R238). -/
def State.baseCore (s : State) (a : Dword) : Nat := tractOfCore (coreOfQuad s.iss.quad) * 4 + field a 24 23
def baseOff (a : Dword) : Nat := field a 22 0

/-- Memory key of offset 0 of the issuing parcel's bank set in a core (R191). -/
def State.setKey (s : State) (core : Nat) : Nat :=
  let w := s.iw
  match s.parcel? w.vdev w.lseq w.pseq with
  | none => scrKey core 0 0
  | some p =>
    match s.parcelSet p core with
    | some b => scrKey core b.1 0
    | none => scrKey core 0 0

/-- Memory keys [lo, hi) of a region from a scratchpad base, when it lies in the bank set and the extent (R248). -/
def State.region? (s : State) (base : Dword) (lo hi : Nat) : Option (Nat × Nat) :=
  match s.scratch s.iw (s.baseCore base) (baseOff base + lo) (hi - lo) with
  | some k => some (k, k + (hi - lo))
  | none => none

/-- The region of a matrix's rows and columns. -/
def State.matRegion? (s : State) (e : List Dword) (rows cols : Nat) : Option (Nat × Nat) :=
  let sp := rcSpan e rows cols
  s.region? (entBase e) sp.1 sp.2

/-- The region of its scale bytes for units 0..U-1 and K-blocks 0..B-1. -/
def State.scaleRegion? (s : State) (e : List Dword) (units blocks : Nat) : Option (Nat × Nat) :=
  s.region? (entScale e) 0 ((units - 1) * entSstr e + blocks)

/-! ### The bytes of a region piece by piece (R256, R265, R268) -/

/-- Where the bytes [lo, hi) of a row lie, as offsets from `BASE`: the swizzle moves 16-byte chunks within a 128-byte block. -/
def swPieces (swm swp lo hi : Nat) : List (Nat × Nat) :=
  let chunks (a b : Nat) : List (Nat × Nat) := (List.range ((b + 15) / 16 - a / 16)).map (fun i =>
    let x := max a (16 * (a / 16 + i))
    let y := min b (16 * (a / 16 + i) + 16)
    (swizzle swm swp x, swizzle swm swp x + (y - x)))
  if swm = 0 then [(lo, hi)]
  else
    let b0 := (lo + 127) / 128 * 128
    let b1 := hi / 128 * 128
    if b1 < b0 then chunks lo hi
    else chunks lo b0 ++ (if b0 < b1 then [(b0, b1)] else []) ++ chunks b1 hi

/-- Bytes of rows at a stride, `n` of them with `len` bytes each from `lo` on; rows that leave no gap lie in one piece. -/
def rowPieces (str lo len n : Nat) : List (Nat × Nat) :=
  if n ≤ 1 ∨ str ≤ len then [(lo, lo + (n - 1) * str + len)]
  else (List.range n).map (fun k => (lo + k * str, lo + k * str + len))

/-- The bytes of `nr` rows from `r0` and `nc` columns from `c0`, as pieces at offsets from `BASE`. -/
def boxPieces (e : List Dword) (r0 nr c0 nc : Nat) : List (Nat × Nat) :=
  let inner := if entRank e ≠ 1 ∧ entT e then (r0, nr) else (c0, nc)
  let outer := if entRank e = 1 then (0, 1) else if entT e then (c0, nc) else (r0, nr)
  let lo := inner.1 * entHalves e / 2
  let len := (inner.1 + inner.2 - 1) * entHalves e / 2 + entBytes e - lo
  ((rowPieces (entStr e 1) (outer.1 * entStr e 1 + lo) len outer.2).map (fun p => swPieces (entSwm e) (entSwp e) p.1 p.2)).flatten

/-- The bytes of the listed rows, columns 0..C-1. -/
def pickPieces (e : List Dword) (rows : List Nat) (cols : Nat) : List (Nat × Nat) :=
  (rows.map (fun r => boxPieces e r 1 0 cols)).flatten

/-- Pieces as memory keys, from a scratchpad base. -/
def State.piecesAt (s : State) (base : Dword) (ps : List (Nat × Nat)) : List (Nat × Nat) :=
  let k := s.setKey (s.baseCore base) + baseOff base
  ps.map (fun p => (k + p.1, k + p.2))

/-- The bytes of a matrix's rows and columns. -/
def State.matPieces (s : State) (e : List Dword) (rows cols : Nat) : List (Nat × Nat) := s.piecesAt (entBase e) (boxPieces e 0 rows 0 cols)

/-- The bytes of its scales for units 0..U-1 and K-blocks 0..B-1, and for the listed units. -/
def State.scalePieces (s : State) (e : List Dword) (units blocks : Nat) : List (Nat × Nat) :=
  s.piecesAt (entScale e) (rowPieces (entSstr e) 0 blocks units)
def State.scalePick (s : State) (e : List Dword) (units : List Nat) (blocks : Nat) : List (Nat × Nat) :=
  s.piecesAt (entScale e) (units.map (fun u => (u * entSstr e, u * entSstr e + blocks)))

/-- Memory key of element (r, c), and whether an RQ4 element lies in the high nibble. -/
def State.elemKey (s : State) (e : List Dword) (r c : Nat) : Nat × Bool :=
  let x := rcCoord e r c
  (s.setKey (s.baseCore (entBase e)) + baseOff (entBase e) + elemAt e x.1 x.2, x.1 % 2 == 1)

/-- Code of an element (R84, R238). -/
def State.elem (s : State) (e : List Dword) (r c : Nat) : Nat :=
  let k := s.elemKey e r c
  let v := s.rd k.1 (entBytes e)
  if entFmt e = 1 then (if k.2 then v / 16 % 16 else v % 16) else v

/-- Store the code of an element; the other nibble of an RQ4 byte stays. -/
def State.setElem (s : State) (e : List Dword) (r c v : Nat) : State :=
  let k := s.elemKey e r c
  if entFmt e = 1 then
    let b := s.rd k.1 1
    s.wr k.1 1 (if k.2 then b % 16 + v % 16 * 16 else b / 16 * 16 + v % 16)
  else s.wr k.1 (entBytes e) v

/-- Scale byte of scale row u and K-block b (R238). -/
def State.scaleKey (s : State) (e : List Dword) (u b : Nat) : Nat :=
  s.setKey (s.baseCore (entScale e)) + baseOff (entScale e) + u * entSstr e + b
def State.scaleAt (s : State) (e : List Dword) (u b : Nat) : Nat := s.rd (s.scaleKey e u b) 1

/-- Meet the words of a region, repairing what parity can (R357). -/
def State.meetRegion (s : State) (r : Nat × Nat) : Except Byte State := s.meetRead r.1 (r.2 - r.1)

def State.meetRegions (s : State) : List (Nat × Nat) → Except Byte State
  | [] => .ok s
  | r :: rs =>
    match s.meetRegion r with
    | .error c => .error c
    | .ok s => s.meetRegions rs

end Sys2Proof.Machine
end

