-- ==== Sys2Proof/Machine/Engine.lean ====
section
/-! DEFINITION. The ENGINE family (spec/14 R306 to R319): issue of `CPY`, `GATH` and `COLL`, the tract's engine queue, the
footprints and edges between jobs, and the events `ENGINE_JOB_START`, `ENGINE_JOB_ACCESS`, `ENGINE_JOB_COMPLETE`. -/

namespace Sys2Proof.Machine

/-! ### Issue (R306, R307) -/

/-- Last register of a level. -/
def regRoom (r : DReg) (n : Nat) : Bool :=
  match r with
  | .hold i => decide (i.toNat + n ≤ 256)
  | .near i => decide (i.toNat + n ≤ 16)
  | .uniform i => decide (i.toNat + n ≤ 64)

def regOpd : DReg → Opd
  | .hold i => .hold i
  | .near i => .near i
  | .uniform i => .uniform i

/-- What an engine instruction asks for: kind, address form, sources, E0 and E1 of a `CPY` box, coordinate registers. -/
structure EngReq where
  kind : JKind
  x    : Bool
  clo  : Option Opd
  a    : Opd
  b    : Opd
  v    : Option Opd
  box  : Option (Nat × Nat)
  reg  : Option DReg
deriving DecidableEq, Repr

/-- Region of `n` bytes from t: key, core, offset. -/
def State.engRegion (s : State) (x : Bool) (t n : Nat) : Option (Nat × Nat × Nat) :=
  match s.tractPlace x t with
  | none => none
  | some (c, off) =>
    match s.scratch s.iw c off n with
    | none => none
    | some k => some (k, c, off)

/-- A number of half-bytes as whole bytes. -/
def halfUp (n : Nat) : Nat := (n + 1) / 2

/-- E0 and E1 of a `CPY` (R309). -/
def EngReq.e0 (r : EngReq) (e : List Dword) : Nat := (r.box.map (·.1)).getD (entDim e 0)
def EngReq.e1 (r : EngReq) : Nat := (r.box.map (·.2)).getD 1

/-- Coordinate registers that a job reads. -/
def EngReq.coords (r : EngReq) (e : List Dword) : Nat :=
  match r.kind with
  | .cpyIn | .cpyOut => if r.box.isSome then entRank e else entRank e - 1
  | _ => 0

/-- Bytes of scratchpad that a job names: the box, the gathered rows, the descriptor (R307, R309 to R311). -/
def EngReq.bytes (r : EngReq) (e ie : List Dword) : Nat :=
  match r.kind with
  | .cpyIn | .cpyOut => halfUp (r.e0 e * r.e1 * entHalves e)
  | .gath => halfUp (entDim ie 0 * entDim e 0 * entHalves e)
  | .coll => 64

/-- `BAD_TENSOR` (R307 item 2). -/
def EngReq.badTensor (r : EngReq) (e ie : List Dword) : Bool :=
  let cpy : Bool := r.kind == .cpyIn || r.kind == .cpyOut
  entLoc e != 0 ||
  (r.box.isSome && (r.e0 e == 0 || r.e1 == 0)) ||
  (cpy && entFmt e == 1 && r.e0 e % 2 == 1) ||
  (match r.reg with
   | some d => !(regRoom d (r.coords e)) && r.coords e != 0
   | none => false) ||
  (r.kind == .gath && (entRank ie != 1 || entFmt ie != 7 || entLoc ie != 1 || decide (4096 < entDim ie 0) ||
    entDim ie 0 == 0 || entRank e != 2))

/-- Two register writes name the same register. -/
def RegW.same : RegW → RegW → Bool
  | .hold a _, .hold b _ => a == b
  | .near a _, .near b _ => a == b
  | .uni a _, .uni b _ => a == b
  | _, _ => false

/-- A coordinate register of the lowest lane is pending (R307). -/
def State.coordsPending (s : State) (r : EngReq) (e : List Dword) (l : Nat) : Bool :=
  match r.reg with
  | none => false
  | some d => (List.range (r.coords e)).any (fun k =>
      (s.onTheWay s.iss.gw).any (fun w => (regWrites l d false 0).any (fun x =>
        RegW.same w (match x with
          | .hold i v => .hold (i + k) v
          | .near i v => .near (i + k) v
          | .uni i v => .uni (i + k) v))))

/-- Coordinate register k in the lowest lane. -/
def State.coord (s : State) (r : EngReq) (l k : Nat) : Word :=
  match r.reg with
  | none => 0
  | some d => s.iw.readReg l d k

/-- A near coordinate register after the first whose written bit is clear (R307 item 5). -/
def State.coordStale (s : State) (r : EngReq) (e : List Dword) (l : Nat) : Bool :=
  match r.reg with
  | some (.near i) => (List.range (r.coords e)).any (fun k => !(hasLane (s.iw.nearWritten (i.toNat + k)) l))
  | _ => false

/-- A hold coordinate register at or above the hold count (R307 item 4). -/
def State.coordBeyond (s : State) (r : EngReq) (e : List Dword) : Bool :=
  match r.reg with
  | some (.hold i) => r.coords e != 0 && decide (s.iw.hc < i.toNat + r.coords e)
  | _ => false

/-- Operands that a job captures: the entries, the regions, the closure. -/
structure EngOps where
  e   : List Dword
  ie  : List Dword
  key : Nat
  core : Nat
  off : Nat
  ik  : Nat
  clo : Option (Nat × Nat × Nat)
deriving DecidableEq, Repr

/-- The checks of R307 in order; `l` is the lowest guard-true lane. -/
def State.engChecks (s : State) (r : EngReq) (h : Hdr) (l : Nat) : Except Byte EngOps :=
  let w := s.iw
  let v (o : Opd) : Word := lo32 (o.val w s.iss h.lit l .i32)
  match s.live? w.vdev (v r.b), (r.v.map (fun o => s.live? w.vdev (v o))).getD (some []) with
  | some e, some ie =>
    let t := (v r.a).toNat
    let tc := r.clo.map (fun o => (v o).toNat)
    if r.badTensor e ie then .error 0x24
    else if t % 16 ≠ 0 ∨ tc.getD 0 % 16 ≠ 0 then .error 0x0C
    else
      let ir : Option (Nat × Nat) := if r.kind == .gath then s.matRegion? ie 1 (entDim ie 0) else some (0, 0)
      let cr : Option (Option (Nat × Nat × Nat)) :=
        match tc with
        | none => some none
        | some t => (s.engRegion r.x t 16).map some
      match s.engRegion r.x t (r.bytes e ie), ir, cr with
      | some k, some i, some c =>
        if s.coordBeyond r e then .error 0x0D
        else if s.coordStale r e l then .error 0x05
        else
          let bad : Bool := match c with
            | some (ck, _, _) => cloBad (s.cloD0 ck) (s.cloD1 ck)
            | none => false
          if bad then .error 0x26
          else .ok { e := e, ie := ie, key := k.1, core := k.2.1, off := k.2.2,
                     ik := if r.kind == .gath then i.1 - (rcSpan ie 1 (entDim ie 0)).1 else 0,
                     clo := c.map (fun x => (x.2.1, x.2.2, x.1)) }
      | _, _, _ => .error 0x0D
  | _, _ => .error 0x09

/-- The job of an engine instruction, with its captured operand record (R307, R309). -/
def State.engJob (s : State) (r : EngReq) (h : Hdr) (l : Nat) (o : EngOps) : Job :=
  let w := s.iw
  let n := r.coords o.e
  let c (k : Nat) : Word := if k < n then s.coord r l k else 0
  let first : Word := if r.box.isSome then c 0 else 0
  let rest : List Word := (List.range 4).map (fun k => if r.box.isSome then c (k + 1) else c k)
  { id := s.nextId, tract := tractOfCore (coreOfQuad s.iss.quad), kind := r.kind, gw := s.iss.gw, mask := laneBit l,
    pc := s.iss.pc, spc := (w.thread l).rpc, vdev := w.vdev, lseq := w.lseq, pseq := w.pseq, jseq := w.jobs + 1,
    handle := lo32 (r.b.val w s.iss h.lit l .i32), entry := o.e, ientry := o.ie, sCore := o.core, sOff := o.off,
    sKey := o.key, clo := o.clo, e0 := r.e0 o.e, e1 := r.e1, c0 := first.toInt, cs := rest.map (·.toInt),
    coord := (first :: rest).take 4, ik := o.ik, idx := [],
    desc := if r.kind == .coll then s.dwords o.key 8 else [], state := .queued, next := 0, back := [], moved := 0,
    subbed := 0, fseq := 0, landed := [], sent := false, flits := [], box := none }

def State.engQueue (s : State) (tract : Nat) : List Job := s.jobs.filter (fun j => j.tract == tract)

/-- Issue an engine instruction (R307): once for the set, with the lowest guard-true lane's operands. -/
def State.engIssue (s : State) (r : EngReq) (h : Hdr) : State :=
  let g := s.iw.guarded s.iss.mask h.guard
  if g = 0 then s.sealNext
  else
    let l := lowest g
    match s.engChecks r h l with
    | .error c => s.take (Exc.of c (if c = 0x05 then laneBit l else g))
    | .ok o =>
      if s.coordsPending r o.e l || decide (64 ≤ (s.engQueue (tractOfCore (coreOfQuad s.iss.quad))).length) then s.waits 0
      else
        let j := s.engJob r h l o
        let w := s.iw
        let s := { s.setIw { w with jobs := w.jobs + 1 } with jobs := s.jobs ++ [j], nextId := s.nextId + 1 }
        s.sealNext

/-- Sources of an engine instruction, for R59. -/
def EngReq.srcs (r : EngReq) : List (Opd × Nat) :=
  [(r.a, 1), (r.b, 1)] ++ (r.v.map (fun o => (o, 1))).toList ++ (r.clo.map (fun o => (o, 1))).toList ++
    (r.reg.map (fun d => (regOpd d, 1))).toList

def EngReq.run (r : EngReq) (h : Hdr) (s : State) : Res :=
  s.guardedRun (Shape.sealing h.guard r.srcs) (s.engIssue r h)

/-- `CPY` (R309). -/
def execCpy (h : Hdr) (out : Bool) (box : Option (BitVec 16 × BitVec 16)) (x : Bool) (clo : Option Opd) (a b : Opd)
    (r : DReg) (s : State) : Res :=
  EngReq.run { kind := if out then .cpyOut else .cpyIn, x := x, clo := clo, a := a, b := b, v := none,
               box := box.map (fun p => (p.2.toNat, p.1.toNat)), reg := some r } h s

/-- `GATH` (R310). -/
def execGath (h : Hdr) (x : Bool) (clo : Option Opd) (a b v : Opd) (s : State) : Res :=
  EngReq.run { kind := .gath, x := x, clo := clo, a := a, b := b, v := some v, box := none, reg := none } h s

/-- `COLL` (R311). -/
def execColl (h : Hdr) (x : Bool) (clo : Option Opd) (a b : Opd) (s : State) : Res :=
  EngReq.run { kind := .coll, x := x, clo := clo, a := a, b := b, v := none, box := none, reg := none } h s

/-! ### Elements of a job (R309, R310) -/

/-- Bytes of the whole data tensor (R431). -/
def tensorBytes (e : List Dword) : Nat :=
  halfUp ((List.range (entRank e)).foldl (fun n k => n * entDim e k) (entHalves e))

/-- Elements that a job reaches. -/
def Job.total (j : Job) : Nat :=
  match j.kind with
  | .cpyIn | .cpyOut => j.e0 * j.e1
  | .gath => entDim j.ientry 0 * entDim j.entry 0
  | .coll => 0

/-- Bytes that a job accounts for in `PEND` (R309, R310). -/
def Job.bytes (j : Job) : Nat := halfUp (j.total * entHalves j.entry)

/-- A coordinate in range of dimension k. -/
def coordIn (e : List Dword) (k : Nat) (c : Int) : Bool :=
  if k < entRank e then decide (0 ≤ c) && decide (c < (entDim e k : Int)) else decide (c = 0)

/-- Coordinates of element i of a job, when they are in range. -/
def Job.coords (j : Job) (i : Nat) : Option (Nat × List Nat) :=
  match j.kind with
  | .gath =>
    let d := entDim j.entry 0
    let r := (j.idx.getD (i / d) 0).toNat
    if r < entDim j.entry 1 then some (i % d, [r]) else none
  | _ =>
    let x0 := j.c0 + ((i % j.e0 : Nat) : Int)
    let x1 := j.cs.getD 0 0 + ((i / j.e0 : Nat) : Int)
    let xs := x1 :: (List.range 3).map (fun k => j.cs.getD (k + 1) 0)
    if coordIn j.entry 0 x0 && (List.range 4).all (fun k => coordIn j.entry (k + 1) (xs.getD k 0)) then
      some (x0.toNat, xs.map (·.toNat))
    else none

/-- Device address of an element, and whether an RQ4 element lies in the high nibble. -/
def Job.addr (j : Job) (c : Nat × List Nat) : Nat × Bool :=
  ((entBase j.entry + BitVec.ofNat 64 (elemAt j.entry c.1 c.2)).toNat, c.1 % 2 == 1)

/-- Memory key of element i's place in the packed region. -/
def Job.spot (j : Job) (i : Nat) : Nat := j.sKey + i * entHalves j.entry / 2

/-! ### Footprints and edges (R312, R313) -/

/-- A region: lines lo..hi-1 of a space (0 for scratchpad, the device plus 1 for device memory). -/
structure Region where
  space : Nat
  lo : Nat
  hi : Nat
deriving DecidableEq, Repr

def Region.meets (a b : Region) : Bool := a.space == b.space && decide (a.lo < b.hi) && decide (b.lo < a.hi)

/-- Lines of scratchpad keys [lo, hi) and of device addresses [lo, hi). -/
def scrRegion (lo hi : Nat) : Region := { space := 0, lo := lo / 16, hi := (hi + 15) / 16 }
def devRegion (vdev lo hi : Nat) : Region := { space := vdev + 1, lo := lo / 128, hi := (hi + 127) / 128 }

/-- In-range part of a run of n coordinates from c: first, and how many. -/
def clipRun (c : Int) (n d : Nat) : Nat × Nat :=
  let lo : Int := max c 0
  let hi : Int := min (c + (n : Int)) (d : Int)
  (lo.toNat, (hi - lo).toNat)

/-- Device bytes from the lowest to the highest in-range element of a box (R312); none is in range. -/
def Job.boxRegion (j : Job) : List Region :=
  let e := j.entry
  let r0 := clipRun j.c0 j.e0 (entDim e 0)
  let r1 := if 1 < entRank e then clipRun (j.cs.getD 0 0) j.e1 (entDim e 1) else (0, 1)
  let high := (List.range 3).all (fun k => coordIn e (k + 2) (j.cs.getD (k + 1) 0))
  if r0.2 = 0 || r1.2 = 0 || !high then []
  else
    let cs := r1.1 :: (List.range 3).map (fun k => (j.cs.getD (k + 1) 0).toNat)
    let sp := boxSpan e r0.1 r0.2 cs [r1.2]
    [devRegion j.vdev ((entBase e).toNat + sp.1) ((entBase e).toNat + sp.2)]

/-- The whole data tensor (R312). -/
def Job.wholeRegion (j : Job) : Region :=
  let e := j.entry
  let sp := boxSpan e 0 (entDim e 0) [] ((List.range (entRank e - 1)).map (fun k => entDim e (k + 1)))
  devRegion j.vdev ((entBase e).toNat + sp.1) ((entBase e).toNat + sp.2)

/-- Lines of the index vector of a `GATH` (R238, R312). -/
def Job.idxRegion (j : Job) : Region :=
  let sp := rcSpan j.ientry 1 (entDim j.ientry 0)
  scrRegion (j.ik + sp.1) (j.ik + sp.2)

/-- Read and write regions (R312). -/
def Job.reads (j : Job) : List Region :=
  match j.kind with
  | .cpyIn => j.boxRegion
  | .cpyOut => [scrRegion j.sKey (j.sKey + j.bytes)]
  | .gath => [j.wholeRegion, j.idxRegion]
  | .coll => [j.wholeRegion, scrRegion j.sKey (j.sKey + 64)]
def Job.writes (j : Job) : List Region :=
  match j.kind with
  | .cpyIn | .gath => [scrRegion j.sKey (j.sKey + j.bytes)]
  | .cpyOut => j.boxRegion
  | .coll => [j.wholeRegion]

def regionsMeet (a b : List Region) : Bool := a.any (fun x => b.any (fun y => x.meets y))

/-- Job J conflicts with the earlier job I (R313). -/
def Job.conflicts (j i : Job) : Bool :=
  regionsMeet i.writes j.reads || regionsMeet i.reads j.writes || regionsMeet i.writes j.writes

/-! ### Faults of a job (R212, R221) -/

/-- The issuing warp of a job still stands somewhere. -/
def State.jobWarp (s : State) (j : Job) : Option Warp :=
  let w := s.warp j.gw
  if s.resident.contains j.gw && w.ofParcel j.vdev j.lseq j.pseq then some w
  else (s.saved.find? (fun x => x.gw == j.gw && x.warp.ofParcel j.vdev j.lseq j.pseq)).map (·.warp)

/-- The engine form of a record (R212). A staging box has the parcel's own mark (R337). -/
def State.jobRec (s : State) (j : Job) (cause : Byte) (page : Option Dword) : Rec :=
  let w := s.jobWarp j
  let clo := match j.clo with
    | some (c, off, _) => (c % 4) * 2 ^ 23 + off
    | none => 0
  let pages := page.toList
  let co (k : Nat) : Nat := (j.coord.getD k 0).toNat
  { Rec.of cause j.gw j.mask j.vdev j.lseq j.pc j.spc with
    pages := pages, async := true, gexit := w.isNone && j.box.isNone, edit := (w.map (·.edit)).getD false,
    tail := some [BitVec.ofNat 64 (j.jseq.toNat * 2 ^ 32 + recPage pages 0),
                  BitVec.ofNat 64 (clo * 2 ^ 32 + j.handle.toNat),
                  BitVec.ofNat 64 (co 1 * 2 ^ 32 + co 0), BitVec.ofNat 64 (co 3 * 2 ^ 32 + co 2)] }

/-- Change a job in place; remove it. -/
def State.setJob (s : State) (j : Job) : State := { s with jobs := s.jobs.map (fun x => if x.id == j.id then j else x) }
def State.dropJob (s : State) (id : Nat) : State := { s with jobs := s.jobs.filter (fun x => x.id != id) }

/-- A fault of a running job (R221): a page fault parks it, a lost or uncorrectable sector kills the parcel, any other
ends it. -/
def State.jobFault (s : State) (j : Job) (cause : Byte) (page : Option Dword) : State :=
  let r := s.record (s.jobRec j cause page) false
  if cause = cPageNotPresent ∨ cause = cPageProtection then r.1.setJob { j with state := .parked, fseq := r.2 }
  else if cause = cReplatLost ∨ cause = cUncorrectable then r.1.killParcel j.gw j.vdev j.lseq j.pseq cause
  else r.1.endParcel j.vdev j.lseq j.pseq cause

/-! ### Accesses of a job -/

/-- What an access of a job comes to. -/
inductive JAcc (α : Type) where
  | ok (v : α)
  | stall
  | fault (cause : Byte) (page : Option Dword)
deriving DecidableEq, Repr

/-- Bytes from one line of device memory (R309, R385, R399, R430). Every job translates on its tract's die, one that stages a box as well
(R336, R364; assumption 49). -/
def State.jobReadLine (s : State) (j : Job) (va n : Nat) : State × JAcc (List Byte) :=
  match s.translate (j.tract / 12) j.vdev (BitVec.ofNat 64 va) false false with
  | (s, .fault c) => (s, .fault c (some (pageOf va)))
  | (s, .window w) =>
    match s.remote j.vdev w .load va (leBytes 8 n) with
    | (s, some _) =>
      let r := s.freeBytes n
      (r.1, .ok r.2)
    | (s, none) => (s, .fault cRemote none)
  | (s, .ok k _) =>
    if (s.inMotion k).isSome then (s, .stall)
    else
      match s.meetRead k n with
      | .error c => (s, .fault c none)
      | .ok s => (s, .ok (s.bytes k n))

/-- Store bytes into one line of device memory; a page in migration or a swath in motion makes the job wait (R389,
R399). -/
def State.jobWriteLine (s : State) (j : Job) (va : Nat) (d : List Byte) : State × JAcc Unit :=
  match s.translate (j.tract / 12) j.vdev (BitVec.ofNat 64 va) true false with
  | (s, .fault c) => (s, .fault c (some (pageOf va)))
  | (s, .window w) =>
    match s.remote j.vdev w .store va d with
    | (s, some _) => (s, .ok ())
    | (s, none) => (s, .fault cRemote none)
  | (s, .ok k mig) =>
    if mig || (s.inMotion k).isSome then (s, .stall)
    else
      match s.store k d with
      | .error c => (s, .fault c none)
      | .ok s => (s, .ok ())

/-- Bytes of an element, which may lie in two lines. -/
def State.jobRead (s : State) (j : Job) (va n : Nat) : State × JAcc (List Byte) :=
  let a := min n (128 - va % 128)
  match s.jobReadLine j va a with
  | (s, .ok x) =>
    if a = n then (s, .ok x)
    else
      match s.jobReadLine j (va + a) (n - a) with
      | (s, .ok y) => (s, .ok (x ++ y))
      | (s, r) => (s, r)
  | (s, r) => (s, r)

def State.jobWrite (s : State) (j : Job) (va : Nat) (d : List Byte) : State × JAcc Unit :=
  let a := min d.length (128 - va % 128)
  match s.jobWriteLine j va (d.take a) with
  | (s, .ok _) => if a = d.length then (s, .ok ()) else s.jobWriteLine j (va + a) (d.drop a)
  | (s, r) => (s, r)

/-- A held read footprint covers a byte of a range of keys (R256); that of a saved warp of the device whose strand has yet to execute again
stays held. -/
def State.footHeld (s : State) (v k n : Nat) : Bool :=
  let covers (w : Warp) : Bool := w.foot.any (fun f => decide (f.1 < k + n) && decide (k < f.2))
  s.resident.any (fun gw => covers (s.warp gw)) || s.saved.any (fun x => x.warp.vdev == v && covers x.warp)

/-- The half of a byte that an RQ4 element takes. -/
def nibble (b : Nat) (hi : Bool) : Nat := if hi then b / 16 % 16 else b % 16
def withNibble (b v : Nat) (hi : Bool) : Nat := if hi then b % 16 + v * 16 else b / 16 * 16 + v

/-- Store one nibble into device memory: the other half of the byte stays, a partial store of its sector (R400). -/
def State.jobNibble (s : State) (j : Job) (va : Nat) (hi : Bool) (v : Nat) : State × JAcc Unit :=
  match s.translate (j.tract / 12) j.vdev (BitVec.ofNat 64 va) true false with
  | (s, .ok k _) => s.jobWriteLine j va [BitVec.ofNat 8 (withNibble (s.byte k).toNat v hi)]
  | (s, .fault c) => (s, .fault c (some (pageOf va)))
  | (s, .window _) =>
    match s.jobReadLine j va 1 with
    | (s, .ok bs) => s.jobWriteLine j va [BitVec.ofNat 8 (withNibble (leNat bs) v hi)]
    | (s, .stall) => (s, .stall)
    | (s, .fault c p) => (s, .fault c p)

/-- Land a value in the packed region. -/
def State.jobLand (s : State) (j : Job) (i v : Nat) : State × JAcc Unit :=
  let k := j.spot i
  let d := if entFmt j.entry = 1 then [BitVec.ofNat 8 (withNibble (s.byte k).toNat v (i % 2 == 1))]
           else leBytes (entBytes j.entry) v
  match s.store k d with
  | .error c => (s, .fault c none)
  | .ok s => (s, .ok ())

/-- Move element i into scratchpad (R309, R310). -/
def State.jobIn (s : State) (j : Job) (i : Nat) : State × JAcc Unit :=
  match j.coords i with
  | none => s.jobLand j i 0
  | some c =>
    let a := j.addr c
    match s.jobRead j a.1 (entBytes j.entry) with
    | (s, .ok bs) => s.jobLand j i (if entFmt j.entry = 1 then nibble (leNat bs) a.2 else leNat bs)
    | (s, .stall) => (s, .stall)
    | (s, .fault c p) => (s, .fault c p)

/-- Move element i out of scratchpad; an element out of range is not written (R309). -/
def State.jobOut (s : State) (j : Job) (i : Nat) : State × JAcc Unit :=
  match j.coords i with
  | none => (s, .ok ())
  | some c =>
    let a := j.addr c
    match s.meetRead (j.spot i) (entBytes j.entry) with
    | .error c => (s, .fault c none)
    | .ok s =>
      let v := s.bytes (j.spot i) (entBytes j.entry)
      if entFmt j.entry = 1 then s.jobNibble j a.1 a.2 (nibble (leNat v) (i % 2 == 1))
      else s.jobWrite j a.1 v

/-- Half-bytes that element i counts for when it is performed: an element out of range of `.out` counts with the last
part (R315). -/
def Job.counts (j : Job) (i : Nat) : Nat :=
  if j.kind = .cpyOut ∧ (j.coords i).isNone then 0 else entHalves j.entry

def Job.isOut (j : Job) : Bool := j.kind == .cpyOut

/-- An element that would write into a held footprint. -/
def State.jobHeldBack (s : State) (j : Job) (i : Nat) : Bool :=
  !j.isOut && s.footHeld j.vdev (j.spot i) (entBytes j.entry)

/-- The element a job performs next: one whose hold is gone, else the next in order (R256). -/
def State.jobPick (s : State) (j : Job) : Option Nat :=
  match j.back.find? (fun i => !(s.jobHeldBack j i)) with
  | some i => some i
  | none => if j.next < j.total then some j.next else none

/-- Note that element i has been performed, or held back. -/
def Job.past (j : Job) (i : Nat) (back : Bool) : Job :=
  let j := if i = j.next then { j with next := i + 1 } else j
  let b := j.back.filter (· != i)
  { j with back := if back then b ++ [i] else b, moved := if back then j.moved else j.moved + j.counts i }

/-- An access of a job that has been performed, against the watch slots as they stand (R415): with the debugger attached a
record goes to its queue and the job runs on, else the hit ends the parcel. -/
def State.jobWatch (s : State) (j : Job) (write : Bool) (a n : Nat) : State × Option (Byte × Option Dword) :=
  let c := s.contract j.vdev
  match c.watchHit write a n with
  | none => (s, none)
  | some b =>
    if c.attached then ((s.record (s.jobRec j 0x22 (some (pageOf b))) true).1, none) else (s, some (0x22, some (pageOf b)))

/-- Several accesses of a job that have been performed: whether it writes, the address, the length of each (R415). -/
def State.jobWatches (s : State) (j : Job) : List (Bool × Nat × Nat) → State × Option (Byte × Option Dword)
  | [] => (s, none)
  | x :: xs =>
    match s.jobWatch j x.1 x.2.1 x.2.2 with
    | (s, some e) => (s, some e)
    | (s, none) => s.jobWatches j xs

/-- The same for element i: an element out of range has no access of device memory. -/
def State.elemWatch (s : State) (j : Job) (i : Nat) : State × Option (Byte × Option Dword) :=
  match j.coords i with
  | none => (s, none)
  | some c => s.jobWatch j j.isOut (j.addr c).1 (entBytes j.entry)

/-- Device addresses and lengths of the last elements up to i that a job has performed: enough of them to cover a sector. -/
def Job.recent (j : Job) (i : Nat) : List (Nat × Nat) :=
  (List.range 64).filterMap (fun d =>
    if d ≤ i ∧ !(j.back.contains (i - d)) then (j.coords (i - d)).map (fun c => ((j.addr c).1, entBytes j.entry)) else none)

/-- A sector of device memory that the elements of a job have covered together gets fresh check bits (R400). -/
def State.jobCovers (s : State) (j : Job) (i : Nat) : State :=
  match j.coords i with
  | none => s
  | some c =>
    let a := (j.addr c).1
    match s.translate (j.tract / 12) j.vdev (BitVec.ofNat 64 a) true false with
    | (s, .ok k _) =>
      s.coverSectors (((j.recent i).filter (fun x => x.1 / 128 == a / 128)).map (fun x => (k / 128 * 128 + x.1 % 128, x.2)))
    | (s, _) => s

/-- Perform up to `n` elements: the state, the job as it then stands, how many were performed, and a fault. -/
def State.jobElems : Nat → State → Job → Nat → State × Job × Nat × Option (Byte × Option Dword)
  | 0, s, j, k => (s, j, k, none)
  | n + 1, s, j, k =>
    match s.jobPick j with
    | none => (s, j, k, none)
    | some i =>
      if s.jobHeldBack j i then State.jobElems n s (j.past i true) k
      else
        match (if j.isOut then s.jobOut j i else s.jobIn j i) with
        | (s, .ok _) =>
          match (if j.isOut then s.jobCovers j i else s).elemWatch j i with
          | (s, none) => State.jobElems n s (j.past i false) (k + 1)
          | (s, some x) => (s, j.past i false, k + 1, some x)
        | (s, .stall) => (s, j, k, none)
        | (s, .fault c p) => (s, j, k, some (c, p))

/-- A drain keeps a core's scratchpad closed to a job, unless the job belongs to the draining core's own warps (R344,
R351). -/
def State.jobClosed (s : State) (j : Job) (c : Nat) : Bool :=
  (s.core c).survey != .none && (s.core (coreOfQuad (quadOfWarp j.gw))).survey == .none

/-- Subtract from the closure what has been performed and not yet subtracted, or with `all` what is left (R315); none is
a word of the closure that cannot be repaired, or a closed core. -/
def State.jobSubtract (s : State) (j : Job) (target : Nat) : Option (State × Job) :=
  match j.clo with
  | none => some (s, { j with subbed := target })
  | some (_, _, k) =>
    if target ≤ j.subbed then some (s, j)
    else
      match s.meetRead k 16 with
      | .error _ => none
      | .ok s => some (s.cloSubtract k (target - j.subbed), { j with subbed := target })

/-- Core of a job's closure. -/
def Job.cloCore (j : Job) : Nat := (j.clo.map (·.1)).getD j.sCore

/-- The progress counter of a parcel returns to 0 (R361). -/
def State.progressed (s : State) (v : Nat) (l : Word) (p : Nat) : State := s.modParcel v l p (fun y => { y with progress := 0 })

/-- A tract's queued or running job by number. -/
def State.job? (s : State) (tract id : Nat) (st : JState) : Option Job :=
  s.jobs.find? (fun j => j.id == id && j.tract == tract && j.state == st)

/-- A request on the quadrant of the issuing warp bars its further jobs: those of a warp that the request holds, and those
that a warp has left behind (R319, R344). -/
def State.jobBarred (s : State) (j : Job) : Bool :=
  let w := s.warp j.gw
  j.box.isNone && !(s.resident.contains j.gw && w.ofParcel j.vdev j.lseq j.pseq && w.nopre) &&
    (match (s.quad (quadOfWarp j.gw)).req with
     | some r => r.vdev == j.vdev
     | none => false)

/-- Every earlier job of the queue with which it conflicts has left (R313), one that stands in the device's saved image
among them (R319). -/
def State.jobFree (s : State) (j : Job) : Bool :=
  ((s.engQueue j.tract).takeWhile (fun i => i.id != j.id)).all (fun i => !(j.conflicts i)) &&
  s.savedJobs.all (fun i => !(i.tract == j.tract && i.vdev == j.vdev && decide (i.id < j.id) && j.conflicts i))

/-- The index vector, read as the job starts (R238, R310). -/
def State.jobIndex (s : State) (j : Job) : Except Byte (State × List Word) :=
  let n := entDim j.ientry 0
  match s.meetRegions ((boxPieces j.ientry 0 1 0 n).map (fun p => (j.ik + p.1, j.ik + p.2))) with
  | .error c => .error c
  | .ok s => .ok (s, (List.range n).map (fun i => BitVec.ofNat 32 (s.rd (j.ik + elemAt j.ientry i []) 4)))

/-- A job's write to an address would meet a page in migration. -/
def State.jobMigAt (s : State) (j : Job) (a : Nat) : Bool :=
  match (s.translate (j.tract / 12) j.vdev (BitVec.ofNat 64 a) true false).2 with
  | .ok _ mig => mig
  | _ => false

/-! ### Collectives at their start (R431, R432) -/

def collOp (d : List Dword) : Nat := field (d.getD 0 0) 31 28
def collN (d : List Dword) : Nat := field (d.getD 0 0) 23 16
def collMe (d : List Dword) : Nat := field (d.getD 0 0) 15 8
def collCid (d : List Dword) : Word := hi32 (d.getD 0 0)
def collRx (d : List Dword) : Dword := d.getD 1 0
/-- Member i: fabric identifier and virtual device. -/
def collMember (d : List Dword) (i : Nat) : BitVec 16 × Nat :=
  let x := field (d.getD (2 + i / 2) 0) (32 * (i % 2) + 31) (32 * (i % 2))
  (BitVec.ofNat 16 (x / 65536), x % 65536)

/-- Dimensions, each with its size and stride, that fill a block of `n` bytes on without a gap, in some order; structural on a bound
for their number. -/
def fillsDense : Nat → Nat → List (Nat × Nat) → Bool
  | 0, _, ds => ds.isEmpty
  | f + 1, n, ds =>
    match ds.find? (fun d => d.2 == n) with
    | some d => fillsDense f (n * d.1) (ds.erase d)
    | none => ds.isEmpty

/-- The data tensor is dense: its elements occupy `BASE`..`BASE` + n - 1, in whatever order its strides give (R431). A dimension of size 1
may have any stride. -/
def entDense (e : List Dword) : Bool :=
  entSwm e == 0 && (entHalves e != 1 || entDim e 0 % 2 == 0) &&
  fillsDense 5 (entHalves e * entDim e 0 / 2)
    (((List.range (entRank e - 1)).map (fun k => (entDim e (k + 1), entStr e (k + 1)))).filter (fun d => d.1 != 1))

/-- A descriptor or tensor that ends the parcel when the job starts (R431). -/
def collBad (d e : List Dword) : Bool :=
  let n := tensorBytes e
  field (d.getD 0 0) 27 24 != 0 || field (d.getD 0 0) 7 0 != 0 || decide (collN d < 2) || decide (12 < collN d) ||
  decide (collN d ≤ collMe d) || decide (3 < collOp d) || !(entDense e) ||
  (decide (collOp d ≤ 1) && ((collRx d).toNat % 64 != 0 || !(canonical (collRx d)))) ||
  (collOp d == 0 && entFmt e != 6) || (collOp d == 1 && entFmt e != 7) ||
  (collOp d == 2 && n % (64 * collN d) != 0)

/-- Read bytes of device memory for a job, line by line; structural on a bound for the number of lines. -/
def State.jobReadAll : Nat → State → Job → Nat → Nat → State × JAcc (List Byte)
  | 0, s, _, _, _ => (s, .ok [])
  | f + 1, s, j, va, n =>
    if n = 0 then (s, .ok [])
    else
      let a := min n (128 - va % 128)
      match s.jobReadLine j va a with
      | (s, .ok x) =>
        match State.jobReadAll f s j (va + a) (n - a) with
        | (s, .ok y) => (s, .ok (x ++ y))
        | (s, r) => (s, r)
      | (s, r) => (s, r)

def State.jobWriteAll : Nat → State → Job → Nat → List Byte → State × JAcc Unit
  | 0, s, _, _, _ => (s, .ok ())
  | f + 1, s, j, va, d =>
    if d = [] then (s, .ok ())
    else
      let a := 128 - va % 128
      match s.jobWriteLine j va (d.take a) with
      | (s, .ok _) => State.jobWriteAll f s j (va + a) (d.drop a)
      | (s, r) => (s, r)

/-- The part of its tensor that a member contributes: offset and length (R432). -/
def collPart (d : List Dword) (n i : Nat) : Nat × Nat :=
  match collOp d with
  | 2 => (i * (n / collN d), n / collN d)
  | 3 => if i = 0 then (0, n) else (0, 0)
  | _ => (0, n)

/-- A member is a device on this package: it has the fabric identifier under which this member names itself. -/
def collHere (d : List Dword) (i : Nat) : Bool := (collMember d i).1 == (collMember d (collMe d)).1

/-- Send a contribution to every other member (R432): to a peer in flits, to a device on this package inside it. The flits that are to be
acknowledged (R433). -/
def State.collSend (s : State) (d : List Dword) (data : List Byte) : State × List (Nat × BitVec 24) :=
  (List.range (collN d)).foldl (fun (a : State × List (Nat × BitVec 24)) i =>
    let m := collMember d i
    if i = collMe d then a
    else if collHere d i then ({ a.1 with extQ := a.1.extQ ++ [.collLocal m.2 (collCid d) (collMe d) data] }, a.2)
    else
      let r := a.1.sendFlitsAs m.1 (flitsOf data.length)
      (r.1.emit (.coll m.1 m.2 (collCid d) data), a.2 ++ r.2)) (s, [])

/-- Start a collective: its checks, its contribution read and sent (R431 to R433). One whose contribution went out before its member was
descheduled goes on from its record: it waits for the members that have not landed, and sends nothing again (R433, R434). -/
def State.collStart (s : State) (j : Job) : State × JAcc Job :=
  let d := j.desc
  let e := j.entry
  let n := tensorBytes e
  if j.sent then (s, .ok { j with state := .running })
  else if collBad d e then (s, .fault 0x24 none)
  else if !((List.range (collN d)).all (fun i => collHere d i || s.peerUp (collMember d i).1)) then
    (s, .fault cRemote none)
  else
    let p := collPart d n (collMe d)
    match State.jobReadAll (p.2 + 1) s j ((entBase e).toNat + p.1) p.2 with
    | (s, .ok data) =>
      let r := if p.2 = 0 then (s, []) else s.collSend d data
      let j := { j with state := .running, landed := insertNat (collMe d) j.landed, sent := true, flits := r.2 }
      match r.1.jobWatch j false ((entBase e).toNat + p.1) p.2 with
      | (s, none) => (s, .ok j)
      | (s, some (c, pg)) => (s, .fault c pg)
    | (s, .stall) => (s, .stall)
    | (s, .fault c pg) => (s, .fault c pg)

/-- Members whose contributions a job still waits for: with a broadcast only member 0's (R432). -/
def Job.collWaits (j : Job) : Bool :=
  let need (i : Nat) : Bool := if collOp j.desc = 3 then i == 0 else true
  (List.range (collN j.desc)).any (fun i => need i && !(j.landed.contains i))

/-- Two elements combined (R432): FP32 under RNE, or wrapping. -/
def collAdd (op : Nat) (a b : Word) : Word := if op = 0 then addRn a b else a + b

/-- Words of a byte list. -/
def wordsOf : Nat → List Byte → List Word
  | 0, _ => []
  | n + 1, bs => BitVec.ofNat 32 (leNat (bs.take 4)) :: wordsOf n (bs.drop 4)

/-- The combine of an all-reduce: members in ascending index, this member's from its tensor, the others' from the receive
area; the result goes into the tensor (R432). -/
def State.collCombine (s : State) (j : Job) : State × JAcc Job :=
  let d := j.desc
  let n := tensorBytes j.entry
  let base := (entBase j.entry).toNat
  let part' (i : Nat) : Nat := if i = collMe d then base else (collRx d).toNat + i * n
  let part (s : State) (i : Nat) : State × JAcc (List Byte) := State.jobReadAll (n + 1) s j (part' i) n
  let sum := (List.range (collN d)).foldl (fun (acc : State × JAcc (List Word)) i =>
    match acc with
    | (s, .ok xs) =>
      match part s i with
      | (s, .ok bs) =>
        let ys := wordsOf (n / 4) bs
        (s, .ok (if i = 0 then ys else List.zipWith (collAdd (collOp d)) xs ys))
      | (s, .stall) => (s, .stall)
      | (s, .fault c p) => (s, .fault c p)
    | (s, .stall) => (s, .stall)
    | (s, .fault c p) => (s, .fault c p)) (s, .ok [])
  match sum with
  | (s, .ok xs) =>
    match State.jobWriteAll (n + 1) s j base (xs.map (fun x => leBytes 4 x.toNat)).flatten with
    | (s, .ok _) =>
      let j' := { j with moved := 2 * n }
      match s.jobWatches j ((List.range (collN d)).map (fun i => (false, (part' i, n))) ++ [(true, (base, n))]) with
      | (s, some (c, p)) => (s, .fault c p)
      | (s, none) => (s, .ok j')
    | (s, .stall) => (s, .stall)
    | (s, .fault c p) => (s, .fault c p)
  | (s, .stall) => (s, .stall)
  | (s, .fault c p) => (s, .fault c p)

/-- An all-reduce whose combine is still to come. -/
def Job.uncombined (j : Job) : Bool := decide (collOp j.desc ≤ 1) && j.moved == 0

/-- A running job whose next write goes to a page in migration, behind which it waits (R12, R389): an element of `.out`, or the combine
of an all-reduce. -/
def State.jobOnMig (s : State) (j : Job) : Bool :=
  j.state == .running &&
    (if j.kind = .coll then
       let base := (entBase j.entry).toNat
       let n := tensorBytes j.entry
       j.uncombined && !j.collWaits && decide (n ≠ 0) &&
         (List.range (n / 65536 + 2)).any (fun i => s.jobMigAt j (min (base + 65536 * i) (base + n - 1)))
     else j.isOut &&
       (match s.jobPick j with
        | some i =>
          match j.coords i with
          | some c => s.jobMigAt j (j.addr c).1 || s.jobMigAt j ((j.addr c).1 + entBytes j.entry - 1)
          | none => false
        | none => false))

/-! ### ENGINE_JOB_START, ENGINE_JOB_ACCESS, ENGINE_JOB_COMPLETE -/

/-- `ENGINE_JOB_START`: a queued job begins (R310, R313, R344, R351, R431). -/
def dueEngineJobStart (tract job : Nat) (s : State) : Option State :=
  match s.job? tract job .queued with
  | none => none
  | some j =>
    if !(s.jobFree j) || s.jobBarred j || (s.core j.sCore).survey != .none then none
    else
      match j.kind with
      | .cpyIn | .cpyOut => some (s.setJob { j with state := .running })
      | .gath =>
        match s.jobIndex j with
        | .error c => some (s.jobFault j c none)
        | .ok (s, ix) => some (s.setJob { j with state := .running, idx := ix })
      | .coll =>
        match s.collStart j with
        | (s, .ok j) => some ((s.setJob j).progressed j.vdev j.lseq j.pseq)
        | (_, .stall) => none
        | (s, .fault c p) => some (s.jobFault j c p)

/-- `ENGINE_JOB_START`: as `dueEngineJobStart` has it; while the event is not due it does not take place, and nothing changes (assumption 14). -/
def execEngineJobStart (tract job : Nat) (s : State) : Res :=
  State.after s (dueEngineJobStart tract job s)

/-- What has been performed is subtracted, a fault is taken, else the job stands as it is (R315, R221). -/
def State.jobAfter (s : State) (j : Job) (fault : Option (Byte × Option Dword)) : State :=
  let s := s.setJob j
  let sub := if s.jobClosed j j.cloCore then some (s, j) else s.jobSubtract j (j.moved / 2)
  match sub, fault with
  | none, _ => s.jobFault j cUncorrectable none
  | some (s, j), some (c, p) => (s.setJob j).jobFault j c p
  | some (s, j), none => s.setJob j

/-- `ENGINE_JOB_ACCESS`: a running job performs up to `n` elements and subtracts their bytes (R309, R315); an all-reduce
makes its combine once every contribution has landed (R432). -/
def dueEngineJobAccess (tract job n : Nat) (s : State) : Option State :=
  match s.job? tract job .running with
  | none => none
  | some j =>
    if j.kind = .coll then
      if !j.uncombined || j.collWaits then none
      else
        match s.collCombine j with
        | (s, .ok j) => some ((s.progressed j.vdev j.lseq j.pseq).jobAfter j none)
        | (_, .stall) => none
        | (s, .fault c p) => some (s.jobFault j c p)
    else if s.jobClosed j j.sCore then none
    else
      let r := State.jobElems n s j 0
      if r.2.2.1 = 0 && r.2.2.2.isNone && r.2.1 == j then none
      else
        let s := if r.2.2.1 = 0 then r.1 else r.1.progressed j.vdev j.lseq j.pseq
        some (s.jobAfter r.2.1 r.2.2.2)

/-- `ENGINE_JOB_ACCESS`: as `dueEngineJobAccess` has it; while the event is not due it does not take place, and nothing changes (assumption 14). -/
def execEngineJobAccess (tract job n : Nat) (s : State) : Res :=
  State.after s (dueEngineJobAccess tract job n s)

/-- Bytes that a job has counted when it completes. -/
def Job.final (j : Job) : Nat := if j.kind = .coll then j.moved / 2 else j.bytes

/-- Every access of a running job is performed. -/
def Job.done (j : Job) : Bool :=
  if j.kind = .coll then j.acked && !j.collWaits && !j.uncombined else decide (j.total ≤ j.next) && j.back.isEmpty

/-- `ENGINE_JOB_COMPLETE`: the last subtraction is made and the job leaves the queue (R314, R315). -/
def dueEngineJobComplete (tract job : Nat) (s : State) : Option State :=
  match s.job? tract job .running with
  | none => none
  | some j =>
    if !j.done || s.jobClosed j j.cloCore then none
    else
      match s.jobSubtract j j.final with
      | none => some (s.jobFault j cUncorrectable none)
      | some (s, _) => some (s.dropJob job)

/-- `ENGINE_JOB_COMPLETE`: as `dueEngineJobComplete` has it; while the event is not due it does not take place, and nothing changes (assumption 14). -/
def execEngineJobComplete (tract job : Nat) (s : State) : Res :=
  State.after s (dueEngineJobComplete tract job s)

end Sys2Proof.Machine
end

