-- ==== Sys2Proof/Machine/Coll.lean ====
section
/-! DEFINITION. `COLL_CONTRIBUTION` (spec/24 R431 to R434): a peer's contribution to a collective lands in the receive area
or in the local tensor, also while the member is descheduled. -/

namespace Sys2Proof.Machine

/-- Where a member's contribution lands, and its length (R432). -/
def collLands (j : Job) (member : Nat) : Nat × Nat :=
  let n := tensorBytes j.entry
  if collOp j.desc ≤ 1 then ((collRx j.desc).toNat + member * n, n)
  else
    let p := collPart j.desc n member
    ((entBase j.entry).toNat + p.1, p.2)

/-- A contribution that a job takes: a member other than this one, not yet landed, of the right length. -/
def collTakes (j : Job) (member : Nat) (data : List Byte) : Bool :=
  j.kind == .coll && decide (member < collN j.desc) && member != collMe j.desc && !(j.landed.contains member) &&
    data.length == (collLands j member).2 && data.length != 0

/-- A landed contribution: for operations 2 and 3 its bytes count (R432). -/
def collLanded (j : Job) (member n : Nat) : Job :=
  { j with landed := j.landed ++ [member], moved := if collOp j.desc ≤ 1 then j.moved else j.moved + 2 * n }

/-- Dword 0 of a closure in saved scratchpad bytes, less a number of bytes (R434). A closure that the image does not hold, so
that it reads `V` = 0, takes no subtraction (assumption 49: R434 speaks of the closure's bytes in the saved image, and R350 has
bytes that were not saved read 0). -/
def savedSubtract (scr : NMap Byte) (k n : Nat) : NMap Byte :=
  let get (m : Nat) : Nat := leNat ((List.range 8).map (fun i => NMap.get byte0 scr (m + i)))
  if !(cloV (BitVec.ofNat 64 (get (k + 8)))) then scr
  else
    let d0 := BitVec.ofNat 64 (get k)
    let new := leBytes 8 (mkD0 (cloExp d0) (cloPend d0 + (2 ^ 48 - n % 2 ^ 48))).toNat
    ((List.range 8).zip new).foldl (fun m x => NMap.set byte0 m (k + x.1) x.2) scr

/-- The parcel's state on a core is saved: warps of it that stood there are, or its state there has gone to the image without one; and no
warp of it stands there now. -/
def State.coreSaved (s : State) (v : Nat) (l : Word) (p core : Nat) : Bool :=
  !((s.warpsOf v l p).any (fun gw => coreOfQuad (quadOfWarp gw) == core)) &&
    (s.saved.any (fun x => x.warp.ofParcel v l p && coreOfQuad (quadOfWarp x.gw) == core) ||
      ((s.parcel? v l p).map (·.imgOut)).any (·.contains core))

/-- Subtract for a descheduled member: in the saved image where the closure's core is saved, else at the home as ever (R294,
R434). Bytes that the image takes whole and has not taken yet are still in place (R350). -/
def State.savedSub (s : State) (j : Job) (n : Nat) : State :=
  match j.clo with
  | none => s
  | some (c, _, k) =>
    match s.parcel? j.vdev j.lseq j.pseq with
    | none => s
    | some p =>
      if !(s.coreSaved j.vdev j.lseq j.pseq c) then s.cloSubtract k n
      else if p.imgExt.contains c || p.imgFull.any (fun q => coreOfQuad q == c) then
        let d0 := BitVec.ofNat 64 (s.rd k 8)
        s.wr k 8 (mkD0 (cloExp d0) (cloPend d0 + (2 ^ 48 - n % 2 ^ 48))).toNat
      else s.modParcel j.vdev j.lseq j.pseq (fun y => { y with imgScr := savedSubtract y.imgScr k n })

/-- A contribution to a collective whose member is descheduled (R434). -/
def State.collSaved (s : State) (j : Job) (member : Nat) (data : List Byte) : Option State :=
  match State.jobWriteAll (data.length + 1) s j (collLands j member).1 data with
  | (s, .ok _) =>
    let j' := collLanded j member data.length
    let n := j'.moved / 2 - j.moved / 2
    let s := if n = 0 then s else s.savedSub j n
    let j' := { j' with subbed := j.subbed + n }
    let s := { s with savedJobs := s.savedJobs.map (fun (y : Job) => if y.id == j.id then j' else y) }
    let s := s.modLaunch j.vdev j.lseq (fun x => { x with stale := true })
    match s.jobWatch j true (collLands j member).1 data.length with
    | (s, none) => some s
    | (s, some (c, p)) => some (s.jobFault j' c p)
  | _ => none

/-- `COLL_CONTRIBUTION` (R432, R434). -/
def dueCollContribution (tract job member : Nat) (data : List Byte) (s : State) : Option State :=
  match s.job? tract job .running with
  | some j =>
    if collTakes j member data then
      match State.jobWriteAll (data.length + 1) s j (collLands j member).1 data with
      | (s, .ok _) =>
        let r := (s.progressed j.vdev j.lseq j.pseq).jobWatch j true (collLands j member).1 data.length
        some (r.1.jobAfter (collLanded j member data.length) r.2)
      | (_, .stall) => none
      | (s, .fault c p) => some (s.jobFault j c p)
    else none
  | none =>
    match s.savedJobs.find? (fun j => j.id == job) with
    | none => none
    | some j => if j.tract == tract && collTakes j member data then s.collSaved j member data else none

/-- A contribution from a member on this package: it lands in the member's job once that has been posted (R432); none while it waits. -/
def State.localContribution (s : State) (vdev : Nat) (cid : Word) (member : Nat) (data : List Byte) : Option State :=
  match (s.jobs ++ s.savedJobs).find? (fun j => j.vdev == vdev && j.kind == .coll && collCid j.desc == cid && collTakes j member data) with
  | some j => dueCollContribution j.tract j.id member data s
  | none => none

/-- `COLL_CONTRIBUTION`: as `dueCollContribution` has it; while the event is not due it does not take place, and nothing changes (assumption 14). -/
def execCollContribution (tract job member : Nat) (data : List Byte) (s : State) : Res :=
  State.after s (dueCollContribution tract job member data s)

end Sys2Proof.Machine
end

