-- ==== Sys2Proof/Machine/Handle.lean ====
section
/-! DEFINITION. The HANDLE family (spec/12 R241 to R243): `THSET`, `THDROP` and the events that end them. -/

namespace Sys2Proof.Machine

/-- The descriptor of a `THSET` in the issuing core's scratchpad, checked in the order of R242 and R265. -/
def State.thsetRead (s : State) (a slot : Nat) : Except Byte (State × List Dword) :=
  if a % 64 ≠ 0 then .error 0x0C
  else
    match s.scratch s.iw (coreOfQuad s.iss.quad) a 64 with
    | none => .error 0x0D
    | some k =>
      match s.meetRead k 64 with
      | .error c => .error c
      | .ok s => if 4096 ≤ slot || !(entOk (s.dwords k 8)) then .error 0x24 else .ok (s, s.dwords k 8)

/-- The handle of a slot's next generation (R234, R242). -/
def newHandle (gen slot : Nat) : Word := BitVec.ofNat 32 (gen * 4096 + slot)

/-- Writes of a value to every guard-true lane, or once to a uniform register. -/
def sameWrites (d : Dst) (g : Mask) (v : Word) : List RegW :=
  match d with
  | .reg (.uniform r) false => regWrites 0 (.uniform r) false (zx v)
  | .reg r false => ((laneList g).map (fun l => regWrites l r false (zx v))).flatten
  | _ => []

/-- `THSET` for the lanes of `g` (R242): the entry is set, and the handle comes back once every die has it. -/
def State.thsetDo (s : State) (g : Mask) (d : Dst) (a slot : Nat) : State :=
  if g = 0 then s.sealNext
  else
    match s.thsetRead a slot with
    | .error c => s.take (Exc.of c g)
    | .ok (s, e) =>
      let v := s.iw.vdev
      let gen := nextGen (entGen (s.entry v slot))
      let s := s.setEntry v slot (entWith e gen true)
      let s := s.launchFlight (s.flightOf .thset g 0 false (sameWrites d g (newHandle gen slot)))
      s.sealNext

/-- `THSET` (R242). -/
def execThset (h : Hdr) (d : Dst) (a b : Opd) (s : State) : Res :=
  let w := s.iw
  let g := d.lanes s.iss.mask (w.guarded s.iss.mask h.guard)
  let v (o : Opd) : Nat := (lo32 (o.val w s.iss h.lit (lowest g) .i32)).toNat
  s.guardedRun { guard := h.guard, srcs := [(a, 1), (b, 1)], dsts := d.regs 1, strand := false, seals := true }
    (s.thsetDo g d (v a) (v b))

/-- `THDROP` for the lanes of `g` (R243): the table drops the entry, and the set stalls until its answer. -/
def State.thdropDo (s : State) (g : Mask) (h : Word) : State :=
  if g = 0 then s.sealNext
  else
    let v := s.iw.vdev
    match s.live? v h with
    | none => s.take (Exc.of 0x09 g)
    | some e =>
      let s := s.setEntry v (bits h.toNat 11 0) (entWith e (nextGen (entGen e)) false)
      let s := s.sealNext
      let s := s.waits s.nextId
      s.launchFlight (s.flightOf .thdrop s.iss.mask 0 false [])

/-- `THDROP` (R243). -/
def execThdrop (h : Hdr) (a : Opd) (s : State) : Res :=
  let w := s.iw
  let g := w.guarded s.iss.mask h.guard
  s.guardedRun (Shape.sealing h.guard [(a, 1)])
    (s.thdropDo g (lo32 (a.val w s.iss h.lit (lowest g) .i32)))

/-- `THSET_COMPLETE`: the entry is in place on every die and the handle is written (R242). -/
def dueThsetComplete (id : Nat) (s : State) : Option State :=
  match s.flight? id .thset with
  | none => none
  | some f => some (s.land f)

/-- `THSET_COMPLETE`: as `dueThsetComplete` has it; while the event is not due it does not take place, and nothing changes (assumption 14). -/
def execThsetComplete (id : Nat) (s : State) : Res :=
  State.after s (dueThsetComplete id s)

/-- `THDROP_ANSWER` (R243). -/
def dueThdropAnswer (id : Nat) (s : State) : Option State :=
  match s.flight? id .thdrop with
  | none => none
  | some f => some (s.land f)

/-- `THDROP_ANSWER`: as `dueThdropAnswer` has it; while the event is not due it does not take place, and nothing changes (assumption 14). -/
def execThdropAnswer (id : Nat) (s : State) : Res :=
  State.after s (dueThdropAnswer id s)

end Sys2Proof.Machine
end

