-- ==== Sys2Proof/Machine/Matrix.lean ====
section
/-! DEFINITION. The MATRIX family (spec/12 R244 to R256, R263): the warp-wide issue of R213, the accumulator, `MMA` and
`MMAG`, gangs, read footprints, and the events `MATRIX_UNIT_DONE` and `EMULATION_DONE`. -/

namespace Sys2Proof.Machine

/-! ### Warp-wide issue (R213, R214, R244) -/

/-- A thread that cannot come to the instruction of a waiting set: blocked, in the trap handler, or waiting at another
warp-wide instruction (R213 item 3). -/
def Warp.elsewhere (w : Warp) (pc : Dword) (l : Nat) : Bool :=
  let t := w.thread l
  t.trap.inTrap ||
  (match t.stat with
   | .waitj _ _ | .sleepj _ _ | .bwait _ _ | .ceded | .gang => true
   | .stalled 0 => w.wides.any (fun i => hasLane i.mask l && i.pc == t.pc && i.pc != pc)
   | _ => false)

/-- Sets that still wait at a warp-wide instruction, other than the one at `pc`. -/
def Warp.wideWaiters (w : Warp) (pc : Dword) : List Issue :=
  (w.wides.filter (fun i => i.pc != pc)).map (fun i =>
    { i with mask := maskOf (fun l => hasLane i.mask l && hasLane w.live l &&
        (w.thread l).pc == i.pc && (w.thread l).stat == .stalled 0) })

/-- Exceptions of several sets of one warp in the same clock (R214): each with its own record. -/
def State.takeGroups (s : State) (c : Byte) (gs : List Issue) : State :=
  let now := s.iss
  let all := gs.foldl (fun m i => m ||| i.mask) 0
  let exc (i : Issue) : Exc := { Exc.of c i.mask with also := all &&& ~~~ i.mask }
  let s' :=
    match gs.find? (fun i => ({ s with iss := i } : State).endsParcel (exc i)) with
    | some _ =>
      let w := s.iw
      (gs.foldl (fun (s : State) i => (({ s with iss := i } : State).record
        (({ s with iss := i } : State).recOf (exc i) false) false).1) s).endParcel w.vdev w.lseq w.pseq c
    | none => gs.foldl (fun (s : State) i => ({ s with iss := i } : State).take (exc i)) s
  { s' with iss := now }

/-- Sets that wait at a warp-wide instruction, as they stand now: with the threads that have come to it since (R213 item 5). -/
def Warp.waiters (w : Warp) : List Issue :=
  (w.wides.filter (fun i => (laneList i.mask).any (fun l =>
    hasLane w.live l && (w.thread l).pc == i.pc && (w.thread l).stat == .stalled 0))).map (fun i =>
    { i with mask := maskOf (fun l => hasLane w.live l && (w.thread l).pc == i.pc &&
        ((w.thread l).stat == .stalled 0 || (w.thread l).stat == .ready)) })

/-- The classes of R213 item 3 in each clock: sets that wait at a warp-wide instruction trap `PARTIAL_ISSUE` once a thread outside
them is elsewhere, whatever the quadrant issues in the clock (R213 item 4). -/
def duePartialIssue (gw : Nat) (s : State) : Option State :=
  let w := s.warp gw
  let is := w.waiters.map (fun i => { i with clk := (s.quad (quadOfWarp gw)).clock })
  match is.find? (fun i => (laneList (w.live &&& ~~~ i.mask)).any (fun l => w.elsewhere i.pc l)) with
  | none => none
  | some i => some { ({ s with iss := i } : State).takeGroups 0x08 (i :: is.filter (fun x => x.pc != i.pc)) with iss := s.iss }

/-- A warp in a slot is its parcel's accumulator warp in its quadrant (R244, R331). -/
def State.accWarp (s : State) (gw : Nat) (w : Warp) : Bool :=
  match s.parcel? w.vdev w.lseq w.pseq with
  | none => false
  | some p => p.accv.getLsbD w.lq && field p.acc (4 * w.lq + 3) (4 * w.lq) == gw % 16

def State.isAccWarp (s : State) (gw : Nat) : Bool := s.accWarp gw (s.warp gw)

/-- The guard `?!p7`, under which an instruction acts in no lane and raises no fault of execution (R26). -/
def neverGuard (g : Guard) : Bool := g.neg && g.idx == 7

/-- Issue for the whole warp, or wait for it (R213); under `?!p7` the set only does `idle` (R26; assumption 49). -/
def State.wholeIssue (s : State) (g : Guard) (idle body : State → State) : State :=
  let w := s.iw
  let i := s.iss
  if neverGuard g then idle s
  else if w.guarded i.mask g != i.mask then s.take (Exc.of 0x08 i.mask)
  else if i.mask != w.live then
    if (laneList (w.live &&& ~~~ i.mask)).any (fun l => w.elsewhere i.pc l) then
      s.takeGroups 0x08 (i :: (w.wideWaiters i.pc).filter (fun x => x.mask != 0))
    else (s.setIw { w with wides := i :: w.wides.filter (fun x => x.pc != i.pc) }).waits 0
  else body (s.setIw { w with wides := [] })

/-- Issue a matrix, tile or spot instruction: partial issue (R213), the accumulator warp (R244), then the instruction. -/
def State.wideIssue (s : State) (g : Guard) (body : State → State) : State :=
  s.wholeIssue g (fun s => s.setIw (s.iw.advance s.iss)) (fun s => if !(s.isAccWarp s.iss.gw) then s.take (Exc.of 0x0D s.iss.mask) else body s)

def wideShape (g : Guard) (srcs : List (Opd × Nat)) : Shape := Shape.reading g srcs

/-- A handle source: from the lowest thread of the set (R240). -/
def State.handleOf (s : State) (h : Hdr) (o : Opd) : Word := lo32 (o.val s.iw s.iss h.lit (lowest s.iss.mask) .i32)

/-- The strand becomes warp-wide, and holds read footprints (R246, R256). -/
def State.goWide (s : State) (foot : List (Nat × Nat)) : State :=
  let w := s.iw
  s.setIw { w with wide := true, foot := w.foot ++ foot.filter (fun p => !(w.foot.contains p)), footAt := w.spcOf s.iss.mask }

/-- The instruction takes the quadrant's unit for a number of clocks, and the set goes on (R255). -/
def State.occupy (s : State) (clocks : Nat) : State :=
  let s := s.launchFlight (s.flightOf .matrix s.iss.mask (s.iss.clk + clocks) false [])
  s.setIw (s.iw.advance s.iss)

/-! ### The accumulator -/

def accKey (i j : Nat) : Nat := 128 * i + j
def Acc.elem (a : Acc) (i j : Nat) : Word := NMap.get 0 a.el (accKey i j)
def Acc.resOf (a : Acc) (i j : Nat) : Word := NMap.get 0 a.res (accKey i j)

/-- A map over the 128 x 128 array, in canonical form. -/
def accBuild (f : Nat → Nat → Word) : NMap Word :=
  (List.range 16384).filterMap (fun k => let v := f (k / 128) (k % 128); if v = 0 then none else some (k, v))

def State.work (s : State) : Acc := (s.quad s.iss.quad).work
def State.setWork (s : State) (a : Acc) : State := s.setQuad s.iss.quad { s.quad s.iss.quad with work := a }

/-! ### Pairs and shapes (R66, R247) -/

def dimN : Dim → Nat
  | .d32 => 32
  | .d64 => 64
  | .d128 => 128

def gangCode : Gang → Nat
  | .quad => 0
  | .core _ => 1
  | .tract _ => 2
def gangSlot : Gang → Nat
  | .quad => 0
  | .core m | .tract m => m.toNat
/-- Sub-tiles along a side of the gang's extent (R252). -/
def gangSide (g : Nat) : Nat := 2 ^ g

/-- `FMT` of A and of B for a pair (R66, R237). -/
def pairFmts : MatPair → Nat × Nat
  | .rq8 => (0, 0)
  | .rq4 => (1, 1)
  | .e4e4 => (2, 2)
  | .e4e5 => (2, 3)
  | .e5e4 => (3, 2)
  | .e5e5 => (3, 3)
  | .bf16 => (4, 4)
  | .f16 => (5, 5)
  | .f32 => (6, 6)

def pairRq (p : MatPair) : Bool := p == .rq8 || p == .rq4
/-- Pairs that the part emulates (R263). -/
def pairAbsent (p : MatPair) : Bool := p == .e4e5 || p == .e5e4

/-- Products per clock (R255). -/
def pairRate : MatPair → Nat
  | .rq8 => 4096
  | .rq4 => 8192
  | .bf16 | .f16 => 1024
  | .f32 => 256
  | _ => 2048

/-- Value of an element code of a floating `FMT`. -/
def fmtValue (fmt v : Nat) : Fl :=
  match fmt with
  | 2 => fpE4.decode v
  | 3 => fpE5.decode v
  | 4 => bfp16.decode v
  | 5 => fp16.decode v
  | _ => fp32.decode v

/-- Signed value of an RQ element (R84). -/
def rqValue (fmt v : Nat) : Int := if fmt = 1 then (BitVec.ofNat 4 v).toInt else (BitVec.ofNat 8 v).toInt

/-! ### Gangs (R252) -/

/-- Group in a membership slot, when the slot holds one (R288). -/
def Warp.group? (w : Warp) (slot : Nat) : Option Nat :=
  if w.groups.getLsbD (32 + slot) then some ((w.groups.toNat / 256 ^ slot) % 256) else none

def Warp.inGroup (w : Warp) (g : Nat) : Bool := (List.range 4).any (fun m => w.group? m == some g)

/-- Members of a group of the launch of a warp with their slots: those that stand there, and those that are saved
(R290, R352). -/
def State.memberWarps (s : State) (w : Warp) (g : Nat) : List (Nat × Warp) :=
  (s.resident.map (fun x => (x, s.warp x)) ++ s.saved.map (fun x => (x.gw, x.warp))).filter (fun x =>
    x.2.vdev == w.vdev && x.2.lseq == w.lseq && x.2.inGroup g)

def State.members (s : State) (w : Warp) (g : Nat) : List Nat := (s.memberWarps w g).map (·.1)

/-- The gang form at which a member stands; a saved one stands at none. -/
def State.gangAt (s : State) (gw : Nat) : Option GangWait := if s.resident.contains gw then (s.warp gw).gang else none

/-- The owner of a quadrant (R402). -/
def State.owner (s : State) (q : Nat) : BitVec 16 :=
  let c := s.core (coreOfQuad q)
  match q % 4 with
  | 0 => c.own0
  | 1 => c.own1
  | 2 => c.own2
  | _ => c.own3

/-- Quadrants that a gang takes: of the issuing core, or of the tract's four cores. -/
def gangQuads (q gang : Nat) : List Nat :=
  if gang = 1 then (List.range 4).map (fun k => q / 4 * 4 + k) else (List.range 16).map (fun k => q / 16 * 16 + k)

/-- The group of a gang, unless it is not shaped for it (R252, R288). A member warp all of whose threads have exited no longer stands in
its quadrant (assumption 31). -/
def State.gangGroup (s : State) (gang slot : Nat) : Except Byte Nat :=
  let w := s.iw
  match w.group? slot with
  | none => .error 0x25
  | some g =>
    let ms := s.memberWarps w g
    let qs := gangQuads s.iss.quad gang
    let nw := match s.launch? w.vdev w.lseq with
      | some x => field (NMap.get 0 x.groups g) 46 32
      | none => 0
    if nw == qs.length && ms.length == qs.length && qs.all (fun q => ms.any (fun x => quadOfWarp x.1 == q)) &&
        ms.all (fun x => s.accWarp x.1 x.2) && qs.all (fun q => (s.owner q).toNat == w.vdev) then .ok g
    else .error 0x25

/-- Row and column origin of a member (R252). -/
def gangOrigin (q gang m n : Nat) : Nat × Nat :=
  let k := q % 4
  let c := q / 4 % 4
  match gang with
  | 0 => (0, 0)
  | 1 => (m * (k / 2), n * (k % 2))
  | _ => (m * (2 * (c / 2) + k / 2), n * (2 * (c % 2) + k % 2))

/-! ### MMA and MMAG: checks (R248, R250, R251) -/

/-- A matrix instruction as its fields give it; `ie` is the index vector's entry for `MMAG`. -/
structure Mat where
  pair : MatPair
  m    : Nat
  n    : Nat
  keep : Bool
  gang : Nat
  ea   : List Dword
  eb   : List Dword
  ie   : Option (List Dword)
deriving DecidableEq, Repr

def Mat.k (x : Mat) : Nat := entCols x.ea

/-- An open block that the instruction cannot join (R250). -/
def Mat.badBlock (x : Mat) (a : Acc) : Bool :=
  a.l != 0 && (!(pairRq x.pair) || a.shM != x.m || a.shN != x.n || a.shG != x.gang || decide (256 < a.l + x.k))

/-- `BAD_TENSOR` (R248 item 2). -/
def Mat.bad (x : Mat) (a : Acc) : Bool :=
  let side := gangSide x.gang
  let off16 (e : List Dword) : Bool := field (entBase e) 3 0 != 0 || entStr e 1 % 16 != 0
  entRank x.ea != 2 || entRank x.eb != 2 || entLoc x.ea != 1 || entLoc x.eb != 1 ||
  entFmt x.ea != (pairFmts x.pair).1 || entFmt x.eb != (pairFmts x.pair).2 ||
  x.k != entRows x.eb || (x.ie.isNone && decide (entRows x.ea < side * x.m)) ||
  decide (entCols x.eb < side * x.n) || off16 x.ea || off16 x.eb || x.badBlock a ||
  (match x.ie with
   | none => false
   | some ie => entRank ie != 1 || entFmt ie != 7 || entLoc ie != 1 || decide (entDim ie 0 < side * x.m) ||
       decide (2 * 131072 < x.m * x.k * entHalves x.ea))

/-- K-blocks whose scales the instruction reads (R250). -/
def Mat.blocks (x : Mat) (a : Acc) : Nat := if a.l = 0 then ceilDiv x.k 256 else 1

/-- A, B, their scale arrays and the index vector lie whole in the bank set and the extent (R248 item 4). -/
def State.matInside (s : State) (x : Mat) : Bool :=
  let nb := ceilDiv x.k 256
  let rs := [s.matRegion? x.ea (entRows x.ea) (entCols x.ea), s.matRegion? x.eb (entRows x.eb) (entCols x.eb)] ++
    (if pairRq x.pair then [s.scaleRegion? x.ea (entRows x.ea) nb, s.scaleRegion? x.eb (entCols x.eb) nb] else []) ++
    (match x.ie with
     | none => []
     | some ie => [s.matRegion? ie 1 (entDim ie 0)])
  rs.all (·.isSome)

/-- The read footprint: A, B, their scales and the index vector up to the last element that the instruction can read (R256);
none where an array lies outside (R248 item 4). -/
def State.matFoot (s : State) (x : Mat) : Option (List (Nat × Nat)) :=
  let o := gangOrigin s.iss.quad x.gang x.m x.n
  let rows := if x.ie.isSome then entRows x.ea else o.1 + x.m
  let cols := o.2 + x.n
  let nb := x.blocks s.work
  if s.matInside x then
    some (s.matPieces x.ea rows x.k ++ s.matPieces x.eb x.k cols ++
      (if pairRq x.pair then s.scalePieces x.ea rows nb ++ s.scalePieces x.eb cols nb else []) ++
      (match x.ie with
       | none => []
       | some ie => s.matPieces ie 1 (o.1 + x.m)))
  else none

/-- Rows of A that the member's accumulator rows take (R249, R251). -/
def State.matRows (s : State) (x : Mat) : List Nat :=
  let o := gangOrigin s.iss.quad x.gang x.m x.n
  match x.ie with
  | none => (List.range x.m).map (fun i => o.1 + i)
  | some ie => (List.range x.m).map (fun i => s.elem ie 0 (o.1 + i))

/-- What the member's operand reads meet: the given rows of A, its columns of B, their scales, its index entries (R265). -/
def State.matReads (s : State) (x : Mat) (rows : List Nat) : List (Nat × Nat) :=
  let o := gangOrigin s.iss.quad x.gang x.m x.n
  let nb := x.blocks s.work
  s.piecesAt (entBase x.ea) (if x.ie.isSome then pickPieces x.ea rows x.k else boxPieces x.ea o.1 x.m 0 x.k) ++
    s.piecesAt (entBase x.eb) (boxPieces x.eb 0 x.k o.2 x.n) ++
    (if pairRq x.pair then s.scalePick x.ea rows nb ++ s.scalePick x.eb ((List.range x.n).map (fun j => o.2 + j)) nb else []) ++
    (match x.ie with
     | none => []
     | some ie => s.piecesAt (entBase ie) (boxPieces ie 0 1 o.1 x.m))

/-! ### MMA and MMAG: the product (R249) -/

/-- K-indices from lo up to hi. -/
def span (lo hi : Nat) : List Nat := (List.range (hi - lo)).map (fun i => lo + i)

/-- One element of a floating product: groups of 16, or 4 for FP32 (R91). -/
def floatElem (grp kk : Nat) (a b : Nat → Fl) (acc : Word) : Word :=
  (List.range (ceilDiv kk grp)).foldl (fun v g =>
    let ks := span (g * grp) (min kk (g * grp + grp))
    rn (Fl.add .rne (f32 v) (groupSum (ks.map (fun k => Fl.mul (a k) (b k)))))) acc

/-- One element of an RQ product: value and residues (R87 to R89, R250). `l0` is the open-block count at the start. -/
def rqElem (l0 kk : Nat) (stay : Bool) (a b : Nat → Int) (sa sb : Nat → Nat) (acc res : Word) : Word × Word :=
  let nb := if l0 = 0 then ceilDiv kk 256 else 1
  (List.range nb).foldl (fun v blk =>
    let ks := if l0 = 0 then span (blk * 256) (min kk (blk * 256 + 256)) else span 0 kk
    let r0 : Res3 := if blk = 0 ∧ l0 ≠ 0 then Res3.unpack v.2 else { r255 := 0, r256 := 0, r257 := 0 }
    let r := ks.foldl (fun r k => r.mac (a k) (b k)) r0
    if blk + 1 = nb ∧ stay then (v.1, r.pack) else (closeBlock v.1 r (sa blk) (sb blk), 0)) (acc, res)

/-- Product count of the last block (R250). -/
def Mat.count (x : Mat) (a : Acc) : Nat := if a.l = 0 then x.k - (ceilDiv x.k 256 - 1) * 256 else a.l + x.k
def Mat.stays (x : Mat) (a : Acc) : Bool := x.keep && decide (x.count a < 256)

/-- The accumulator after the instruction, with the given rows of A (R249, R250). -/
def State.matProduct (s : State) (x : Mat) (rows : List Nat) : Acc :=
  let acc := s.work
  let c0 := (gangOrigin s.iss.quad x.gang x.m x.n).2
  let inside (i j : Nat) : Bool := decide (i < x.m) && decide (j < x.n)
  if pairRq x.pair then
    let stay := x.stays acc
    let f (i j : Nat) : Word × Word :=
      let r := rows.getD i 0
      rqElem acc.l x.k stay (fun k => rqValue (entFmt x.ea) (s.elem x.ea r k))
        (fun k => rqValue (entFmt x.eb) (s.elem x.eb k (c0 + j))) (fun b => s.scaleAt x.ea r b)
        (fun b => s.scaleAt x.eb (c0 + j) b) (acc.elem i j) (acc.resOf i j)
    { acc with
      el := accBuild (fun i j => if inside i j then (f i j).1 else acc.elem i j),
      res := accBuild (fun i j => if inside i j then (f i j).2 else acc.resOf i j),
      l := if stay then x.count acc else 0, shM := if stay then x.m else 0, shN := if stay then x.n else 0,
      shG := if stay then x.gang else 0 }
  else
    let grp := if x.pair = .f32 then 4 else 16
    { acc with
      el := accBuild (fun i j =>
        if inside i j then
          floatElem grp x.k (fun k => fmtValue (entFmt x.ea) (s.elem x.ea (rows.getD i 0) k))
            (fun k => fmtValue (entFmt x.eb) (s.elem x.eb k (c0 + j))) (acc.elem i j)
        else acc.elem i j) }

/-- Clocks on the unit (R251, R255). -/
def Mat.clocks (x : Mat) : Nat :=
  max 16 (ceilDiv (x.m * x.n * x.k) (pairRate x.pair)) +
    (if x.ie.isSome then ceilDiv (x.m * x.k * entHalves x.ea) 2048 else 0)

/-- Start a matrix instruction whose checks have passed: the product, then the unit's time, or for a pair that the part
lacks the wait on the firmware (R249, R263). -/
def State.matStart (s : State) (x : Mat) (rows : List Nat) : State :=
  match s.meetRegions (s.matReads x rows) with
  | .error c => s.take (Exc.of c s.iss.mask)
  | .ok s =>
    let s := s.setWork (s.matProduct x rows)
    if pairAbsent x.pair then
      let s := s.waits s.nextId
      s.launchFlight (s.flightOf .emulate s.iss.mask 0 false [])
    else s.occupy x.clocks

/-! ### Gang start (R253) -/

/-- The matrix instruction that a gang member waits at, from its captured entries. -/
def GangWait.mat (g : GangWait) : Option Mat :=
  match g.ins with
  | .mma _ p m n k gg _ _ =>
    some { pair := p, m := dimN m, n := dimN n, keep := k, gang := gangCode gg, ea := g.ents.getD 0 [],
           eb := g.ents.getD 1 [], ie := none }
  | .mmag _ p m n k gg _ _ _ =>
    some { pair := p, m := dimN m, n := dimN n, keep := k, gang := gangCode gg, ea := g.ents.getD 0 [],
           eb := g.ents.getD 1 [], ie := some (g.ents.getD 2 []) }
  | _ => none

/-- A gang member that stands outside its window while another member waits at the gang form (R253). -/
def State.gangFirst (s : State) (gw : Nat) : Bool :=
  let w := s.warp gw
  ((List.range 4).filterMap w.group?).any (fun g => (s.members w g).any (fun x => x != gw &&
    (match s.gangAt x with
     | some y => y.group == g
     | none => false)))

/-- A member waits at the gang form of its set. -/
def State.gangWait (s : State) (g : GangWait) : State :=
  let w := s.iw
  s.setIw { w.mapThreads s.iss.mask (fun _ t => { t with stat := .gang }) with gang := some g }

/-- Each of several waiting members traps `BAD_GANG` (R253). -/
def State.gangTrap (s : State) (ms : List Nat) : State :=
  let now := s.iss
  let s' := ms.foldl (fun (s : State) x =>
    match (s.warp x).gang with
    | none => s
    | some g =>
      let s := s.setWarp x { s.warp x with gang := none }
      ({ s with iss := g.iss } : State).take (Exc.of 0x25 g.iss.mask)) s
  { s' with iss := now }

/-- One member of a gang that starts: `run` performs its part. -/
def State.gangRun (s : State) (x : Nat) (run : State → GangWait → State) : State :=
  match (s.warp x).gang with
  | none => s
  | some g =>
    let s := s.setWarp x { s.warp x with gang := none, gangGrps := insertNat g.group (s.warp x).gangGrps, gangEnd := false }
    run { s with iss := { g.iss with clk := (s.quad g.iss.quad).clock } } g

/-- After an arrival: a group all of whose members wait at one gang starts when they agree; when they disagree, or wait at
different groups, each traps (R253). -/
def State.gangEval (s : State) (gs : List Nat) (start : State → List Nat → State) : State :=
  let now := s.iss
  let s' := gs.foldl (fun (s : State) g =>
    let ms := s.members s.iw g
    let ws := ms.filterMap s.gangAt
    let key := (ws.map (·.key)).headD []
    if ms.isEmpty || ws.length != ms.length || !(ws.any (fun x => x.group == g)) then s
    else if ws.all (fun x => x.group == g && x.key == key) then { start s ms with iss := now }
    else s.gangTrap ms) s
  { s' with iss := now }

/-- Part of a member in a matrix gang. -/
def State.matMember (s : State) (g : GangWait) : State :=
  match g.mat with
  | none => s
  | some x => s.matStart x g.vals

/-- A matrix gang starts: each member runs its part (R253). -/
def State.matGang (s : State) (ms : List Nat) : State := ms.foldl (fun (s : State) x => s.gangRun x State.matMember) s

/-! ### MMA and MMAG: issue -/

/-- Live entries of handles, in order. -/
def State.entries? (s : State) : List Word → Option (List (List Dword))
  | [] => some []
  | h :: hs =>
    match s.live? s.iw.vdev h, s.entries? hs with
    | some e, some es => some (e :: es)
    | _, _ => none

/-- Group of a gang form; none outside gangs. -/
def State.gangOf (s : State) (gang slot : Nat) : Except Byte (Option Nat) :=
  if gang = 0 then .ok none else (s.gangGroup gang slot).map some

/-- The issue of a matrix instruction past R213 and R244: the checks of R248 in order, then the product or the wait for the
gang. -/
def State.matIssue (s : State) (ins : Instr) (hs : List Word) (mk : List (List Dword) → Mat) (slot : Nat) : State :=
  let stop (c : Byte) : State := s.take (Exc.of c s.iss.mask)
  match s.entries? hs with
  | none => stop 0x09
  | some es =>
    let x := mk es
    if x.bad s.work then stop 0x24
    else
      match s.gangOf x.gang slot with
      | .error c => stop c
      | .ok grp =>
        match s.matFoot x with
        | none => stop 0x0D
        | some foot =>
          let rows := s.matRows x
          if x.ie.isSome && rows.any (fun r => decide (entRows x.ea ≤ r)) then stop 0x0B
          else
            let s := s.goWide foot
            match grp with
            | none => s.matStart x rows
            | some g =>
              let key := [0, (pairFmts x.pair).1, (pairFmts x.pair).2, x.m, x.n, b2n x.keep, x.gang] ++ hs.map (·.toNat)
              let s := s.gangWait { iss := s.iss, ins := ins, group := g, key := key, ents := es, vals := rows }
              s.gangEval ((List.range 4).filterMap s.iw.group?) State.matGang

/-- `MMA` (R247 to R250). -/
def execMma (h : Hdr) (p : MatPair) (m n : Dim) (keep : Bool) (g : Gang) (a b : Opd) (s : State) : Res :=
  s.guardedRun (wideShape h.guard [(a, 1), (b, 1)])
    (s.wideIssue h.guard (fun s =>
      s.matIssue (.mma h p m n keep g a b) [s.handleOf h a, s.handleOf h b]
        (fun es => { pair := p, m := dimN m, n := dimN n, keep := keep, gang := gangCode g, ea := es.getD 0 [],
                     eb := es.getD 1 [], ie := none }) (gangSlot g)))

/-- `MMAG` (R251). -/
def execMmag (h : Hdr) (p : MatPair) (m n : Dim) (keep : Bool) (g : Gang) (a b v : Opd) (s : State) : Res :=
  s.guardedRun (wideShape h.guard [(a, 1), (b, 1), (v, 1)])
    (s.wideIssue h.guard (fun s =>
      s.matIssue (.mmag h p m n keep g a b v) [s.handleOf h a, s.handleOf h b, s.handleOf h v]
        (fun es => { pair := p, m := dimN m, n := dimN n, keep := keep, gang := gangCode g, ea := es.getD 0 [],
                     eb := es.getD 1 [], ie := some (es.getD 2 []) }) (gangSlot g)))

/-! ### MATRIX_UNIT_DONE, EMULATION_DONE -/

/-- Threads that stalled at an instruction go on at the next one. -/
def State.goOn (s : State) (f : Flight) : State :=
  let w := s.warp f.gw
  let w := w.mapThreads w.live (fun _ t => if t.stat = .stalled f.id then t.goto f.iss.next else t)
  (s.setWarp f.gw w).dropFlight f.id

/-- Run registers that a spot run leaves (R281): into the working image, and into the committed one once its strand has
sealed (R245). -/
def State.spotLand (s : State) (f : Flight) : State :=
  match f.spot with
  | none => s
  | some (cnt, var, nrm) =>
    let q := f.iss.quad
    let x := s.quad q
    let put (a : Acc) : Acc := { a with cnt := cnt, var := var, nrm := nrm }
    s.setQuad q { x with work := put x.work, commit := if f.sealed then put x.commit else x.commit }

/-- `MATRIX_UNIT_DONE`: a matrix, tile or spot instruction completes and frees its unit (R255); `SSTAT` writes its
registers (R282). -/
def dueMatrixUnitDone (id : Nat) (s : State) : Option State :=
  match s.flight? id .matrix with
  | none => none
  | some f => if s.ripe f then some ((s.spotLand f).land f) else none

/-- `MATRIX_UNIT_DONE`: as `dueMatrixUnitDone` has it; while the event is not due it does not take place, and nothing changes (assumption 14). -/
def execMatrixUnitDone (id : Nat) (s : State) : Res :=
  State.after s (dueMatrixUnitDone id s)

/-- `EMULATION_DONE`: the firmware has written the result and the set goes on (R263). -/
def dueEmulationDone (id : Nat) (s : State) : Option State :=
  match s.flight? id .emulate with
  | none => none
  | some f => some (s.goOn f)

/-- `EMULATION_DONE`: as `dueEmulationDone` has it; while the event is not due it does not take place, and nothing changes (assumption 14). -/
def execEmulationDone (id : Nat) (s : State) : Res :=
  State.after s (dueEmulationDone id s)

end Sys2Proof.Machine
end

