-- ==== Sys2Proof/Machine/Tile.lean ====
section
/-! DEFINITION. The TILE family (spec/12 R257 to R262): `ACZ`, `ACLD`, `ACST`, `HAD` and `QNT`, on the accumulator of the
issuing quadrant. -/

namespace Sys2Proof.Machine

/-- `FMT` code of a format (R237). -/
def fmtCode : Fmt → Nat
  | .rq8 => 0
  | .rq4 => 1
  | .e4m3 => 2
  | .e5m2 => 3
  | .bf16 => 4
  | .f16 => 5
  | .f32 => 6
  | .i32 => 7
  | .n8 => 8

/-- What every tile handle must be: a matrix in scratchpad of at most 128 x 128, of the expected format (R257). -/
def tileOk (e : List Dword) (f : Option Fmt) : Bool :=
  entRank e == 2 && entLoc e == 1 && decide (entRows e ≤ 128) && decide (entCols e ≤ 128) &&
  (match f with
   | none => true
   | some x => entFmt e == fmtCode x)

/-- Issue of a tile instruction past R213 and R244: the handle, the format check, the region (R265). -/
def State.tileIssue (s : State) (hd : Word) (bad : List Dword → Bool) (scales : List Dword → Option (List (Nat × Nat)))
    (body : State → List Dword → List (Nat × Nat) → State) : State :=
  let stop (c : Byte) : State := s.take (Exc.of c s.iss.mask)
  match s.live? s.iw.vdev hd with
  | none => stop 0x09
  | some e =>
    if bad e then stop 0x24
    else
      match s.matRegion? e (entRows e) (entCols e), scales e with
      | some _, some sc => body (s.goWide []) e (s.matPieces e (entRows e) (entCols e) ++ sc)
      | _, _ => stop 0x0D

/-- Inside a region of the accumulator. -/
def inTile (e : List Dword) (i j : Nat) : Bool := decide (i < entRows e) && decide (j < entCols e)

/-- Clocks of `ACLD` and `ACST` (R259, R260). -/
def tileClocks (e : List Dword) : Nat := max 16 (ceilDiv (entRows e * entCols e) 128)

/-! ### ACZ (R258) -/

/-- `ACZ`: every element +0, every residue 0, L 0. -/
def execAcz (h : Hdr) (s : State) : Res :=
  s.guardedRun (wideShape h.guard [])
    (s.wideIssue h.guard (fun s =>
      let s := s.goWide []
      (s.setWork { s.work with el := [], res := [], l := 0, shM := 0, shN := 0, shG := 0 }).occupy 16))

/-! ### ACLD (R259) -/

/-- An element as `ACLD` brings it in: FP32 bit for bit, INT32 as `CVT.f32.i32`, the others exactly. -/
def acIn (fmt v : Nat) : Word :=
  match fmt with
  | 6 => w32 v
  | 7 => rn (Fl.ofInt (BitVec.ofNat 32 v).toInt)
  | _ => rn (fmtValue fmt v)

def State.acldPlain (s : State) (e : List Dword) : State :=
  let a := s.work
  (s.setWork { a with el := accBuild (fun i j => if inTile e i j then acIn (entFmt e) (s.elem e i j) else a.elem i j) }).occupy
    (tileClocks e)

/-- `ACLD.rns`: residues by R90, and L, which as `b` is read in the lowest thread of the set (R261; assumption 49). -/
def State.acldRns (s : State) (e : List Dword) (l : Nat) : State :=
  let a := s.work
  let f (i j : Nat) : Word :=
    if inTile e i j then (if l = 0 then 0 else (Res3.unpack (w32 (s.elem e i j))).pack) else a.resOf i j
  (s.setWork { a with res := accBuild f, l := l, shM := if l = 0 then 0 else entRows e,
                      shN := if l = 0 then 0 else entCols e, shG := 0 }).occupy (tileClocks e)

/-- `ACLD`. -/
def execAcld (h : Hdr) (rns : Option Opd) (f : Option Fmt) (a : Opd) (s : State) : Res :=
  s.guardedRun (wideShape h.guard ((a, 1) :: (rns.map (fun b => (b, 1))).toList))
    (s.wideIssue h.guard (fun s =>
      let l := (rns.map (fun b => (s.handleOf h b).toNat)).getD 0
      s.tileIssue (s.handleOf h a)
        (fun e => !(tileOk e f) || (if rns.isSome then entFmt e != 7 || decide (255 < l)
          else decide (entFmt e < 2) || decide (7 < entFmt e)))
        (fun _ => some [])
        (fun s e rs =>
          match s.meetRegions rs with
          | .error c => s.take (Exc.of c s.iss.mask)
          | .ok s => if rns.isSome then s.acldRns e l else s.acldPlain e)))

/-! ### ACST (R260) -/

/-- An element as `ACST` writes it out: FP32 as it is, INT32 rounded and saturated, the others by R83. -/
def acOut (fmt : Nat) (rm : Rnd) (x : Word) : Nat :=
  match fmt with
  | 2 => FFmt.convert fp32 fpE4 rm x.toNat
  | 3 => FFmt.convert fp32 fpE5 rm x.toNat
  | 4 => FFmt.convert fp32 bfp16 rm x.toNat
  | 5 => FFmt.convert fp32 fp16 rm x.toNat
  | 7 => (BitVec.ofInt 32 (fpToInt rm (-2147483648) 2147483647 x.toNat)).toNat
  | _ => x.toNat

/-- Row and column pairs of a region, row by row. -/
def tilePoints (e : List Dword) : List (Nat × Nat) :=
  ((List.range (entRows e)).map (fun i => (List.range (entCols e)).map (fun j => (i, j)))).flatten

/-- Store a code at every place of the region. -/
def State.putTile (s : State) (e : List Dword) (f : Nat → Nat → Nat) : State :=
  (tilePoints e).foldl (fun s p => s.setElem e p.1 p.2 (f p.1 p.2)) s

/-- `ACST`. -/
def execAcst (h : Hdr) (rns : Bool) (rm : Rnd) (f : Option Fmt) (a : Opd) (s : State) : Res :=
  s.guardedRun (wideShape h.guard [(a, 1)])
    (s.wideIssue h.guard (fun s =>
      s.tileIssue (s.handleOf h a)
        (fun e => !(tileOk e f) || (if rns then entFmt e != 7 else decide (entFmt e < 2) || decide (7 < entFmt e)))
        (fun _ => some [])
        (fun s e rs =>
          match s.meetRegions rs with
          | .error c => s.take (Exc.of c s.iss.mask)
          | .ok s =>
            let w := s.work
            (s.putTile e (fun i j =>
              if rns then (if w.l = 0 then 0 else (w.resOf i j).toNat) else acOut (entFmt e) rm (w.elem i j))).occupy
              (tileClocks e))))

/-! ### Units of the whole core (R176) -/

/-- A shared unit is in use, or another request issued before. -/
def unitTaken (now free : Nat) (queue : List Nat) (gw : Nat) : Bool := decide (now < free) || queue.headD gw != gw

/-- A request takes its place behind those that issued before it. -/
def joinQ (queue : List Nat) (gw : Nat) : List Nat := if queue.contains gw then queue else queue ++ [gw]

/-! ### HAD (R261) -/

/-- One stage of the transform with distance `d`: sums in the lower places, differences in the upper. -/
def hadStage (d : Nat) (x : List Word) : List Word :=
  let g (k : Nat) : Word := x.getD k 0
  (List.range x.length).map (fun i =>
    if (i / d) % 2 = 0 then addRn (g i) (g (i + d))
    else rn (Fl.add .rne (f32 (g (i - d))) (Fl.neg (f32 (g i)))))

/-- P points: log2 P stages, then the scale by 2^e. -/
def hadPoints (p : Nat) (e : Int) (x : List Word) : List Word :=
  ((List.range p).foldl (fun x k => hadStage (2 ^ k) x) x).map (fun v => rn (Fl.scale e (f32 v)))

/-- The transform of one line of 128, in groups of 2^p. -/
def hadLine (p : Nat) (e : Int) (x : List Word) : List Word :=
  ((List.range (128 / 2 ^ p)).map (fun g => hadPoints p e ((x.drop (g * 2 ^ p)).take (2 ^ p)))).flatten

/-- The whole image, by rows or by columns. -/
def Acc.had (a : Acc) (col : Bool) (p : Nat) (e : Int) : NMap Word :=
  let line (v : Nat) : List Word :=
    hadLine p e ((List.range 128).map (fun k => if col then a.elem k v else a.elem v k))
  let all := (List.range 128).map line
  accBuild (fun i j => if col then (all.getD j []).getD i 0 else (all.getD i []).getD j 0)

/-- `HAD`: it waits for the core's Hadamard unit (R176). Its exponent `b` is read in the lowest thread of the set (R261; assumption 49). -/
def execHad (h : Hdr) (col : Bool) (a b : Opd) (s : State) : Res :=
  s.guardedRun (wideShape h.guard [(a, 1), (b, 1)])
    (s.wideIssue h.guard (fun s =>
      s.tileIssue (s.handleOf h a) (fun e => !(tileOk e none) || entHad e == 0 || s.work.l != 0) (fun _ => some [])
        (fun t e _ =>
          let c := coreOfQuad s.iss.quad
          let x := s.core c
          let gw := s.iss.gw
          if unitTaken s.round x.hadFree x.hadQ gw then (s.setCore c { x with hadQ := joinQ x.hadQ gw }).waits 0
          else
            let p := entHad e + 3
            let acc := t.work
            let t := t.setWork { acc with el := acc.had col p (s.handleOf h b).toInt }
            (t.setCore c { x with hadFree := s.round + 128 * p, hadQ := x.hadQ.filter (fun y => y != gw) }).occupy (128 * p))))

/-! ### QNT (R262) -/

def qmax (fmt : Nat) : Int := if fmt = 0 then 127 else 7
def qshift (fmt : Nat) : Int := if fmt = 0 then 6 else 2

/-- The scale byte of a run. -/
def qntScale (fmt : Nat) (run : List Word) : Nat :=
  if run.any (fun x => (f32 x).isNan) then 0xFF
  else
    match f32 (w32 (run.foldl (fun m x => max m (x.toNat % 2 ^ 31)) 0)) with
    | .fin _ 0 _ => 127
    | .fin _ m e => (max 0 (min 254 ((Nat.log2 m : Int) + e - qshift fmt + 127))).toNat
    | _ => 254

/-- A quantised element. -/
def qntElem (fmt sc : Nat) (x : Word) : Int :=
  let sat (v : Int) : Int := max (-(qmax fmt) - 1) (min (qmax fmt) v)
  if sc = 0xFF then 0
  else
    match Fl.scale (127 - (sc : Int)) (f32 x) with
    | .fin n m e => sat (roundToInt .rne n m e)
    | .inf n => if n then -(qmax fmt) - 1 else qmax fmt
    | .nan => 0

/-- Accumulator values of a scale unit: a row, or for `.b` a column. -/
def qntRun (a : Acc) (e : List Dword) (isB : Bool) (u : Nat) : List Word :=
  if isB then (List.range (entRows e)).map (fun i => a.elem i u) else (List.range (entCols e)).map (fun j => a.elem u j)

/-- `QNT`. -/
def execQnt (h : Hdr) (given isB : Bool) (f : Option Fmt) (a : Opd) (s : State) : Res :=
  s.guardedRun (wideShape h.guard [(a, 1)])
    (s.wideIssue h.guard (fun s =>
      s.tileIssue (s.handleOf h a) (fun e => !(tileOk e f) || decide (1 < entFmt e) || s.work.l != 0)
        (fun e => (s.scaleRegion? e (if isB then entCols e else entRows e) 1).map (fun _ =>
          s.scalePieces e (if isB then entCols e else entRows e) 1))
        (fun s e rs =>
          match s.meetRegions rs with
          | .error c => s.take (Exc.of c s.iss.mask)
          | .ok s =>
            let acc := s.work
            let us := List.range (if isB then entCols e else entRows e)
            let scs := us.map (fun u => if given then s.scaleAt e u 0 else qntScale (entFmt e) (qntRun acc e isB u))
            let s := if given then s else us.foldl (fun s u => s.wr (s.scaleKey e u 0) 1 (scs.getD u 0)) s
            (s.putTile e (fun i j =>
              let q := qntElem (entFmt e) (scs.getD (if isB then j else i) 0) (acc.elem i j)
              (q % 256).toNat)).occupy 128)))

end Sys2Proof.Machine
end

