-- ==== Sys2Proof/Machine/Spot.lean ====
section
/-! DEFINITION. The SPOT family (spec/13 R266 to R286): norms, alias tables, sampled products and their run registers. -/

namespace Sys2Proof.Machine

/-! ### Operands (R267, R268) -/

/-- A handle that cannot be an operand matrix of the family (R267). -/
def spotBadMat (e : List Dword) : Bool :=
  entRank e != 2 || entLoc e != 1 || decide (entFmt e < 2) || decide (6 < entFmt e) ||
    field (entBase e) 3 0 != 0 || entStr e 1 % 16 != 0

/-- A handle that cannot be a norm vector (R269, R273). -/
def spotBadVec (e : List Dword) : Bool := entRank e != 1 || entFmt e != 6 || entLoc e != 1

/-- An element converted exactly to FP32 (R83). -/
def State.elemF32 (s : State) (e : List Dword) (r c : Nat) : Word :=
  if entFmt e = 6 then w32 (s.elem e r c) else rn (fmtValue (entFmt e) (s.elem e r c))

/-! ### SNORM (R269, R270) -/

/-- Norm of a line: fused squares in ascending order, then the root. -/
def lineNorm (xs : List Word) : Word := sqrtRn (xs.foldl (fun s x => fmaRn x x s) 0)

/-- Elements of the line of index k: a column of A, a row of B. -/
def State.spotLine (s : State) (e : List Dword) (isB : Bool) (k : Nat) : List Word :=
  if isB then (List.range (entCols e)).map (fun j => s.elemF32 e k j)
  else (List.range (entRows e)).map (fun i => s.elemF32 e i k)

def spotLen (e : List Dword) (isB : Bool) : Nat := if isB then entRows e else entCols e

/-- `SNORM` (R270): every line is read before a norm is written (assumption 49). -/
def execSnorm (h : Hdr) (isB : Bool) (v m : Opd) (s : State) : Res :=
  s.guardedRun (wideShape h.guard [(v, 1), (m, 1)])
    (s.wideIssue h.guard (fun s =>
      let stop (c : Byte) : State := s.take (Exc.of c s.iss.mask)
      match s.entries? [s.handleOf h v, s.handleOf h m] with
      | none => stop 0x09
      | some es =>
        let ev := es.getD 0 []
        let em := es.getD 1 []
        let k := spotLen em isB
        if spotBadMat em || spotBadVec ev || entDim ev 0 != k then stop 0x24
        else
          match s.matRegion? em (entRows em) (entCols em), s.matRegion? ev 1 k with
          | some _, some _ =>
            let foot := s.matPieces em (entRows em) (entCols em)
            match (s.goWide foot).meetRegions (foot ++ s.matPieces ev 1 k) with
            | .error c => stop c
            | .ok s =>
              let ns := (List.range k).map (fun i => lineNorm (s.spotLine em isB i))
              let s := (List.range k).foldl (fun (s : State) i => s.setElem ev 0 i (ns.getD i 0).toNat) s
              s.occupy (max 16 (ceilDiv (entRows em * entCols em) 128))
          | _, _ => stop 0x0D))

/-! ### Alias tables (R271 to R274) -/

/-- The integer nearest k times the quotient of two finite values times 2^24, ties to even; none for NaN and infinity. -/
def flRatio (x y : Fl) (k : Nat) : Option Int :=
  match x, y with
  | .fin n1 m1 e1, .fin n2 m2 e2 =>
    if m2 = 0 then none
    else
      let num := k * m1 * 2 ^ 24 * 2 ^ (e1 - e2).toNat
      let den := m2 * 2 ^ (e2 - e1).toNat
      let q := num / den
      let r := num % den
      let v : Nat := if 2 * r > den ∨ (2 * r = den ∧ q % 2 = 1) then q + 1 else q
      some (if n1 = n2 then (v : Int) else -(v : Int))
  | _, _ => none

/-- P_k: the integer nearest K q_k 2^24 / Z, ties to even (R274). -/
def aliasP (k : Nat) (q z : Word) : Int := (flRatio (f32 q) (f32 z) k).getD 0

/-- The field `THR` for a value of P. R272 gives the field the range 0..2^24, and negative norms lead outside it: the field is
then a free value (assumption 49). -/
def thrField (p : Int) : Nat :=
  if 0 ≤ p ∧ p ≤ 2 ^ 24 then p.toNat else (Config.thrOutside p).toNat

def notFinite (x : Word) : Bool :=
  match f32 x with
  | .fin _ _ _ => false
  | _ => true

/-- `STAT` of a table (R272, R274). -/
def aliasStat (qs : List Word) (z : Word) : Nat :=
  if qs.any notFinite || notFinite z then 2 else if z = 0 then 1 else 0

/-- The construction: stacks of an index and its P, last pushed first; the entries written so far (index, `THR`,
`ALIAS`). Structural on a bound for the number of pops. -/
def aliasBuild : Nat → List (Nat × Int) → List (Nat × Int) → List (Nat × Int × Nat) → List (Nat × Int × Nat)
  | 0, sm, lg, out => out ++ (sm ++ lg).map (fun x => (x.1, 2 ^ 24, x.1))
  | n + 1, sm, lg, out =>
    match sm, lg with
    | (l, pl) :: sm', (g, pg) :: lg' =>
      let p := pg + pl - 2 ^ 24
      let out := out ++ [(l, pl, g)]
      if p < 2 ^ 24 then aliasBuild n ((g, p) :: sm') lg' out else aliasBuild n sm' ((g, p) :: lg') out
    | _, _ => out ++ (sm ++ lg).map (fun x => (x.1, 2 ^ 24, x.1))

/-- Threshold and alias of every index. -/
def aliasEntries (qs : List Word) (z : Word) : List (Nat × Int × Nat) :=
  let k := qs.length
  if aliasStat qs z = 0 then
    let ps := (List.range k).map (fun i => (i, aliasP k (qs.getD i 0) z))
    aliasBuild k (ps.filter (fun x => decide (x.2 < 2 ^ 24))).reverse (ps.filter (fun x => !(decide (x.2 < 2 ^ 24)))).reverse []
  else (List.range k).map (fun i => (i, 2 ^ 24, i))

/-- The two dwords of an entry, and of the header (R272). -/
def aliasDwords (q w : Word) (thr al : Nat) : List Dword :=
  [BitVec.ofNat 64 (w.toNat * 2 ^ 32 + q.toNat), BitVec.ofNat 64 (al % 65536 * 2 ^ 32 + thr)]
def aliasHeader (z : Word) (stat k : Nat) : List Dword := [BitVec.ofNat 64 (z.toNat * 2 ^ 32 + stat * 2 ^ 24 + k), 0]

/-- Write the table of norms at a memory key (R274). -/
def State.putAlias (s : State) (key : Nat) (a b : List Word) : State :=
  let qs := List.zipWith mulRn a b
  let z := qs.foldl addRn 0
  let s := s.setBytes key (dwordBytes (aliasHeader z (aliasStat qs z) qs.length))
  (aliasEntries qs z).foldl (fun s x =>
    let q := qs.getD x.1 0
    s.setBytes (key + 16 + 16 * x.1) (dwordBytes (aliasDwords q (divRn z q) (thrField x.2.1) x.2.2))) s

/-- Values of a norm vector. -/
def State.vec (s : State) (e : List Dword) : List Word := (List.range (entDim e 0)).map (fun k => w32 (s.elem e 0 k))

/-- `SALIAS`: it waits for the core's alias-table unit (R176). -/
def execSalias (g : Guard) (toff : BitVec 23) (va vb : Opd) (s : State) : Res :=
  let h : Hdr := { guard := g, long := true, lit := 0 }
  s.guardedRun (wideShape g [(va, 1), (vb, 1)])
    (s.wideIssue g (fun s =>
      let stop (c : Byte) : State := s.take (Exc.of c s.iss.mask)
      let core := coreOfQuad s.iss.quad
      match s.entries? [s.handleOf h va, s.handleOf h vb] with
      | none => stop 0x09
      | some es =>
        let ea := es.getD 0 []
        let eb := es.getD 1 []
        let k := entDim ea 0
        if toff.toNat % 16 ≠ 0 then stop 0x0C
        else if spotBadVec ea || spotBadVec eb || k != entDim eb 0 || k == 0 || decide (65536 < k) then stop 0x24
        else
          match s.scratch s.iw core toff.toNat (16 + 16 * k), s.matRegion? ea 1 k, s.matRegion? eb 1 k with
          | some t, some _, some _ =>
            let x := s.core core
            let gw := s.iss.gw
            if unitTaken s.round x.aliasFree x.aliasQ gw then (s.setCore core { x with aliasQ := joinQ x.aliasQ gw }).waits 0
            else
              let foot := s.matPieces ea 1 k ++ s.matPieces eb 1 k
              match ((s.goWide foot).meetRegions foot).bind (fun (s : State) => s.meetRead t (16 + 16 * k)) with
              | .error c => stop c
              | .ok s =>
                let s := s.putAlias t (s.vec ea) (s.vec eb)
                let n := 2 * k + 32
                (s.setCore core { s.core core with aliasFree := s.round + n, aliasQ := x.aliasQ.filter (fun y => y != gw) }).occupy n
          | _, _, _ => stop 0x0D))

/-! ### SPOT: the run (R277, R278) -/

def spotGamma : Dword := 0x9E3779B97F4A7C15

/-- MIX. -/
def spotMix (z : Dword) : Dword :=
  let z := (z ^^^ (z >>> 30)) * 0xBF58476D1CE4E5B9
  let z := (z ^^^ (z >>> 27)) * 0x94D049BB133111EB
  z ^^^ (z >>> 31)

/-- Index and weight of draw t, from a table at a memory key with K entries; an entry beyond its range acts as R276
says. -/
def State.spotDraw (s : State) (key k : Nat) (seed : Dword) (t : Nat) : Nat × Word :=
  let x := spotMix (seed + BitVec.ofNat 64 (t + 1) * spotGamma)
  let j := (field x 63 32 * k) / 2 ^ 32
  let u := field x 23 0
  let e (i n : Nat) : Dword := BitVec.ofNat 64 (s.rd (key + 16 + 16 * i + 8 * n) 8)
  let thr := min (field (e j 1) 24 0) (2 ^ 24)
  let al := field (e j 1) 47 32
  let pick := if u < thr then j else if al < k then al else j
  (pick, hi32 (e pick 0))

/-- A member of a run: its table and the table's `STAT`, its operands, its origin, its region row by row. -/
structure SpotMem where
  gw : Nat
  iss : Issue
  key : Nat
  stat : Nat
  ea : List Dword
  eb : List Dword
  r0 : Nat
  c0 : Nat
  rows : List (List Word)
deriving DecidableEq, Repr

/-- One draw of a member: the rank-1 term into its region. `s` is the state whose `iss` is the member's. -/
def SpotMem.draw (x : SpotMem) (s : State) (m n k : Nat) (seed : Dword) (t : Nat) : SpotMem :=
  let s : State := { s with iss := x.iss }
  let d := s.spotDraw x.key k seed t
  let rr := (List.range m).map (fun i => mulRn (s.elemF32 x.ea (x.r0 + i) d.1) d.2)
  let br := (List.range n).map (fun j => s.elemF32 x.eb d.1 (x.c0 + j))
  { x with rows := List.zipWith (fun a row => List.zipWith (fun b v => fmaRn a b v) br row) rr x.rows }

/-- NORM2 of a region, row-major (R278). -/
def norm2 (rows : List (List Word)) : Word := rows.flatten.foldl (fun n e => fmaRn e e n) 0

/-- A region of one value. -/
def spotFill (m n : Nat) (v : Word) : List (List Word) := List.replicate m (List.replicate n v)

/-- What a run leaves. -/
structure SpotOut where
  ms  : List SpotMem
  cnt : Nat
  why : Nat
  var : Word
  nrm : Word
  nb  : Nat
deriving DecidableEq, Repr

def ratio32 (x : Word) (n : Nat) : Word := rn (Fl.quot (f32 x) (Fl.ofInt n))

/-- V from D and s (R277). -/
def spotVar (d : Word) (s : Nat) : Word :=
  if (f32 d).isNan then canonNan
  else
    let v := ratio32 d s
    if v = 0x80000000 ∨ Fl.lt (f32 v) (.fin false 0 0) then 0 else v

def leF (a b : Word) : Bool := Fl.lt (f32 a) (f32 b) || Fl.eq (f32 a) (f32 b)

/-- The batches of a run, structural on a bound for their number. -/
def spotLoop (st : State) (m n k bat smax : Nat) (seed : Dword) (tau z2 : Word) :
    Nat → List SpotMem → Nat → Word → Nat → SpotOut
  | 0, ms, s, _, nb => { ms := ms, cnt := s, why := 2, var := 0, nrm := 0, nb := nb }
  | f + 1, ms, s, s2, nb =>
    let b := min bat (smax - s)
    let ms := (List.range b).foldl (fun ms t => ms.map (fun x => SpotMem.draw x st m n k seed (s + t))) ms
    let s := s + b
    let s2 := addRn s2 (rn (Fl.mul (Fl.ofInt b) (f32 z2)))
    let n2 := (ms.map (fun x => norm2 x.rows)).foldl addRn 0
    let m2 := ratio32 n2 (s * s)
    let t := ratio32 s2 s
    let d := rn (Fl.add .rne (f32 t) (Fl.neg (f32 m2)))
    let v := spotVar d s
    let out (why : Nat) : SpotOut := { ms := ms, cnt := s, why := why, var := v, nrm := m2, nb := nb + 1 }
    if leF v (mulRn (mulRn tau tau) m2) then out 1
    else if s = smax then out 2
    else spotLoop st m n k bat smax seed tau z2 f ms s s2 (nb + 1)

/-- The run of members whose tables are usable (R277): the batches and the scaling, from the table's `Z` and `K`. -/
def spotRun (st : State) (m n bat smax : Nat) (seed : Dword) (tau : Word) (hdr : Dword) (ms : List SpotMem) : SpotOut :=
  let z := hi32 hdr
  let r := spotLoop st m n (field hdr 16 0) bat smax seed tau (mulRn z z) (ceilDiv smax bat)
    (ms.map (fun x => { x with rows := spotFill m n 0 })) 0 0 0
  let f := rn (Fl.quot (Fl.ofInt 1) (Fl.ofInt r.cnt))
  { r with ms := r.ms.map (fun x => { x with rows := x.rows.map (fun row => row.map (fun e => mulRn e f)) }) }

/-- What a member whose table is degenerate or invalid leaves: no sample is drawn (R277). -/
def spotIdle (m n : Nat) (x : SpotMem) : SpotOut :=
  let v : Word := if x.stat = 2 then canonNan else 0
  { ms := [{ x with rows := spotFill m n v }], cnt := 0, why := 3, var := v, nrm := v, nb := 0 }

/-- Clocks of a run (R277, R283). -/
def spotClocks (m n : Nat) (r : SpotOut) : Nat :=
  let e := ceilDiv (m * n) 1024
  16 + r.cnt * max 4 e + r.nb * (e + 8) + e

/-! ### SPOT: issue (R275, R276, R279) -/

def batN : Batch → Nat
  | .b8 => 8
  | .b16 => 16
  | .b32 => 32
  | .b64 => 64

def spotGroupOpd : SpotGroup → Opd
  | .hold m => .hold (m.setWidth 8 * 4)
  | .uniform m => .uniform (m.setWidth 6 * 4)

/-- Parameters: seed, s_max, tau (R275). -/
structure SpotPar where
  seed : Dword
  smax : Nat
  tau  : Word
deriving DecidableEq, Repr

def State.spotPar (s : State) (c : SpotGroup) : SpotPar :=
  let w (k : Nat) : Word := Machine.Opd.word s.iw (lowest s.iss.mask) k (spotGroupOpd c)
  { seed := pair64 (w 0) (w 1), smax := (w 2).toNat, tau := w 3 }

/-- `BAD_TENSOR` of a `SPOT` (R276 item 3). -/
def spotBad (a : Acc) (ea eb : List Dword) (d0 d1 : Dword) (m n side smax : Nat) : Bool :=
  let k := field d0 16 0
  spotBadMat ea || spotBadMat eb || k == 0 || decide (65536 < k) || field d0 31 26 != 0 || field d0 23 17 != 0 ||
    d1 != 0 || field d0 25 24 == 3 || entCols ea != k || entRows eb != k || entRows ea != side * m ||
    entCols eb != side * n || a.l != 0 || smax == 0

/-- The member that the issuing set is. -/
def State.spotMem (s : State) (key stat : Nat) (ea eb : List Dword) (gang m n : Nat) : SpotMem :=
  let o := gangOrigin s.iss.quad gang m n
  { gw := s.iss.gw, iss := s.iss, key := key, stat := stat, ea := ea, eb := eb, r0 := o.1, c0 := o.2, rows := [] }

/-- A member's region goes into its working image, and its unit is taken; its run registers follow at the end (R281). -/
def State.spotPut (s : State) (x : SpotMem) (m n clocks : Nat) (r : SpotOut) : State :=
  let s : State := { s with iss := x.iss }
  let a := s.work
  let inside (i j : Nat) : Bool := decide (i < m) && decide (j < n)
  let s := s.setWork { a with el := accBuild (fun i j => if inside i j then (x.rows.getD i []).getD j 0 else a.elem i j) }
  let f := { s.flightOf .matrix s.iss.mask (s.iss.clk + clocks) false [] with
    spot := some (BitVec.ofNat 64 (r.why * 2 ^ 32 + r.cnt), r.var, r.nrm) }
  let s := s.launchFlight f
  s.setIw (s.iw.advance s.iss)

/-- What a run leaves goes into place. -/
def State.spotLeave (s : State) (m n : Nat) (r : SpotOut) : State :=
  r.ms.foldl (fun (s : State) x => s.spotPut x m n (spotClocks m n r) r) s

/-- Run the members together and put their results (R278, R279): each as its own table's `STAT` says (R277). Members that draw no
sample contribute to no batch (assumption 49: R279 has every member contribute, and R277 has such a member stop before the
first batch). -/
def State.spotAll (s : State) (m n bat : Nat) (p : SpotPar) (hdr : Dword) (ms : List SpotMem) : State :=
  let go := ms.filter (fun x => x.stat == 0)
  let s := if go.isEmpty then s else s.spotLeave m n (spotRun s m n bat p.smax p.seed p.tau hdr go)
  (ms.filter (fun x => x.stat != 0)).foldl (fun (s : State) x => s.spotLeave m n (spotIdle m n x)) s

/-- The gang of a `SPOT` starts: every member's operands as captured (R240, R279). -/
def State.spotGang (s : State) (gws : List Nat) : State :=
  let gs := gws.filterMap (fun x => (s.warp x).gang.map (fun g => (x, g)))
  match gs with
  | [] => s
  | (_, g0) :: _ =>
    match g0.ins with
    | .spot _ toff m n bat gang _ _ _ =>
      let v (k : Nat) : Nat := g0.vals.getD k 0
      let p : SpotPar := { seed := BitVec.ofNat 64 (v 0), smax := v 1, tau := BitVec.ofNat 32 (v 2) }
      let hdr := BitVec.ofNat 64 (v 3)
      let mk (g : GangWait) : SpotMem :=
        let t : State := { s with iss := { g.iss with clk := (s.quad g.iss.quad).clock } }
        let key := (t.scratch t.iw (coreOfQuad t.iss.quad) toff.toNat 16).getD 0
        t.spotMem key (field (BitVec.ofNat 64 (g.vals.getD 3 0)) 25 24) (g.ents.getD 0 []) (g.ents.getD 1 []) (gangCode gang) (dimN m) (dimN n)
      let ms := gs.map (fun x => mk x.2)
      let s := gs.foldl (fun (s : State) x =>
        s.setWarp x.1 { s.warp x.1 with gang := none, gangGrps := insertNat x.2.group (s.warp x.1).gangGrps, gangEnd := false }) s
      s.spotAll (dimN m) (dimN n) (batN bat) p hdr ms
    | _ => s

/-- `SPOT`. -/
def execSpot (g : Guard) (toff : BitVec 23) (m n : Dim) (bat : Batch) (gang : Gang) (a b : Opd) (c : SpotGroup)
    (s : State) : Res :=
  let h : Hdr := { guard := g, long := true, lit := 0 }
  s.guardedRun (wideShape g [(a, 1), (b, 1), (spotGroupOpd c, 4)])
    (s.wideIssue g (fun s =>
      let stop (c : Byte) : State := s.take (Exc.of c s.iss.mask)
      let core := coreOfQuad s.iss.quad
      let gc := gangCode gang
      let hs := [s.handleOf h a, s.handleOf h b]
      match s.entries? hs with
      | none => stop 0x09
      | some es =>
        let ea := es.getD 0 []
        let eb := es.getD 1 []
        if toff.toNat % 16 ≠ 0 then stop 0x0C
        else
          match s.scratch s.iw core toff.toNat 16 with
          | none => stop 0x0D
          | some key =>
            let d0 := BitVec.ofNat 64 (s.rd key 8)
            let d1 := BitVec.ofNat 64 (s.rd (key + 8) 8)
            match s.scratch s.iw core (toff.toNat + 16) (16 * field d0 16 0) with
            | none => stop 0x0D
            | some _ =>
              let p := s.spotPar c
              if spotBad s.work ea eb d0 d1 (dimN m) (dimN n) (gangSide gc) p.smax then stop 0x24
              else
                match s.gangOf gc (gangSlot gang) with
                | .error c => stop c
                | .ok grp =>
                  match s.matRegion? ea (entRows ea) (entCols ea), s.matRegion? eb (entRows eb) (entCols eb) with
                  | some _, some _ =>
                    let foot := s.matPieces ea (entRows ea) (entCols ea) ++ s.matPieces eb (entRows eb) (entCols eb) ++
                      [(key, key + 16 + 16 * field d0 16 0)]
                    match (s.goWide foot).meetRegions foot with
                    | .error c => stop c
                    | .ok s =>
                      match grp with
                      | none =>
                        s.spotAll (dimN m) (dimN n) (batN bat) p d0 [s.spotMem key (field d0 25 24) ea eb gc (dimN m) (dimN n)]
                      | some gid =>
                        let key := [1, toff.toNat, dimN m, dimN n, batN bat, gc, p.seed.toNat, p.smax, p.tau.toNat,
                          field d0 63 32, field d0 16 0, gangSlot gang] ++ hs.map (·.toNat)
                        let s := s.gangWait { iss := s.iss, ins := .spot g toff m n bat gang a b c, group := gid,
                                              key := key, ents := es,
                                              vals := [p.seed.toNat, p.smax, p.tau.toNat, d0.toNat] }
                        s.gangEval ((List.range 4).filterMap s.iw.group?) State.spotGang
                  | _, _ => stop 0x0D))

/-! ### SSTAT (R282) -/

def statReg : StatGroup → DReg
  | .hold m => .hold (m.setWidth 8 * 4)
  | .near m => .near (m.setWidth 4 * 4)
  | .uniform m => .uniform (m.setWidth 6 * 4)

/-- The four values of a run: count, variance, norm, reason. -/
def statVals (cnt : Dword) (var nrm : Word) : List Word := [lo32 cnt, var, nrm, BitVec.ofNat 32 (field cnt 33 32)]

/-- Register writes of the group in a lane. -/
def statLane (d : StatGroup) (vs : List Word) (l : Nat) : List RegW :=
  ((List.range 4).map (fun k =>
    regWrites l (match statReg d with
      | .hold i => .hold (i + BitVec.ofNat 8 k)
      | .near i => .near (i + BitVec.ofNat 4 k)
      | .uniform i => .uniform (i + BitVec.ofNat 6 k)) false (zx (vs.getD k 0)))).flatten

def statWrites (d : StatGroup) (vs : List Word) (m : Mask) : List RegW :=
  match d with
  | .uniform _ => statLane d vs 0
  | _ => ((laneList m).map (statLane d vs)).flatten

/-- `SSTAT`: the values of the last run, two clocks after it and the issue. -/
def execSstat (h : Hdr) (d : StatGroup) (s : State) : Res :=
  s.guardedRun { guard := h.guard, srcs := [], dsts := [(statReg d, 4)], strand := false, seals := false }
    (s.wideIssue h.guard (fun s =>
      let s := s.goWide []
      let fs := s.flights.filter (fun f => f.kind == .matrix && f.iss.quad == s.iss.quad)
      let fin := fs.foldl (fun m f => max m f.due) s.iss.clk
      let a := s.work
      let run := (fs.filterMap (·.spot)).getLast?.getD (a.cnt, a.var, a.nrm)
      let f := s.flightOf .matrix s.iss.mask (fin + 2) true (statWrites d (statVals run.1 run.2.1 run.2.2) s.iss.mask)
      let s := s.launchFlight f
      s.setIw (s.iw.advance s.iss)))

end Sys2Proof.Machine
end

