-- ==== Sys2Proof/Machine/Save.lean ====
section
/-! DEFINITION. Saved state (spec/18 R350 to R352, spec/22 R423): saving one warp, capturing and restoring a parcel's
scratchpad, tags and accumulators, and resuming saved warps. -/

namespace Sys2Proof.Machine

/-! ### A parcel's places -/

/-- Quadrants whose accumulator belongs to the parcel (R331). -/
def Parcel.accQuads (p : Parcel) : List Nat :=
  (p.quadsAt.filter (fun x => p.accv.getLsbD x.1)).map (·.2)

/-- Memory keys of a parcel's extent on a core. -/
def State.extentOf (s : State) (p : Parcel) (core : Nat) : Option (Nat × Nat) :=
  match s.parcelSet p core with
  | none => none
  | some (base, _) => some (scrKey core base p.sbase, p.ssize)

/-- Its tag entries on a core, as keys of the saved image and entries of the table (R175, R331). -/
def State.tagsOf (s : State) (p : Parcel) (core : Nat) : List Nat :=
  match s.parcelSet p core with
  | none => []
  | some (base, _) => (List.range p.tcount).map (fun k => 4 * base + p.tbase + k)

/-! ### Capture -/

/-- Replace the bytes of a range in an image by those of memory. -/
def captureBytes (mem : List Host.Cell) (img : NMap Byte) (k n : Nat) : NMap Byte :=
  (mem.filter (fun e => decide (k ≤ e.1) && decide (e.1 < k + n))).foldl (fun m e => NMap.set byte0 m e.1 e.2)
    (NMap.clear img k n)

/-- Put a parcel's extent on a core into its image. -/
def State.captureScr (s : State) (core : Nat) (p : Parcel) : Parcel :=
  match s.extentOf p core with
  | none => p
  | some (k, n) => { p with imgScr := captureBytes s.mem p.imgScr k n }

def State.captureTags (s : State) (core : Nat) (p : Parcel) : Parcel :=
  { p with imgTags := (s.tagsOf p core).foldl (fun m e =>
      NMap.set 0 m (256 * core + e) (NMap.get 0 (s.core core).tags e)) p.imgTags }

def State.captureAcc (s : State) (q : Nat) (p : Parcel) : Parcel :=
  if p.accQuads.contains q then { p with imgAcc := NMap.set Acc.init p.imgAcc q (s.committed q) } else p

/-- What a forced save has marked on a core goes into the image (R350). -/
def State.captureFull (s : State) (core : Nat) (p : Parcel) : Parcel :=
  let qs := p.imgFull.filter (fun q => coreOfQuad q == core)
  if qs.isEmpty then p
  else
    let p := s.captureTags core (s.captureScr core p)
    let p := qs.foldl (fun p q => s.captureAcc q p) p
    { p with imgFull := p.imgFull.filter (fun q => !(coreOfQuad q == core)) }

/-- A read of saved state meets a word that cannot be repaired: the parcel is killed (R354, R357). -/
def State.meetOrKill (s : State) (v : Nat) (l : Word) (p gw : Nat) (rs : List (Nat × Nat)) : State :=
  match s.meetAll rs with
  | some s => s
  | none => ((s.record (Rec.of 0x13 (gw / 64 * 64) 0 v l 0 0) false).1).killParcel gw v l p 0x13

/-- What a capture on a core reads of a parcel: its extent and tag entries there. -/
def State.meetPlace (s : State) (core v : Nat) (l : Word) (p : Nat) : State :=
  match s.parcel? v l p with
  | none => s
  | some y =>
    let ts := s.tagsOf y core
    match s.extentOf y core with
    | none => s
    | some (k, n) => s.meetOrKill v l p (64 * core) ((k / 4, n / 4) :: ts.map (fun e => (tagWord core e, 2)))

/-- The captures of a core read what they save, parcel by parcel: those that `which` names. -/
def State.meetPlaces (s : State) (core : Nat) (which : Parcel → Bool) : State :=
  if s.badW.isEmpty then s
  else ((s.launches.map (fun x => (x.parcels.filter which).map (fun p => (x.vdev, x.lseq, p.pseq)))).flatten).foldl
    (fun (s : State) y => s.meetPlace core y.1 y.2.1 y.2.2) s

/-- Change every parcel. -/
def State.mapParcels (s : State) (f : Parcel → Parcel) : State :=
  { s with launches := s.launches.map (fun x => { x with parcels := x.parcels.map f }) }

/-- A parcel has its place on a core, in quadrants that its device owns. -/
def State.placedOn (s : State) (x : Launch) (p : Parcel) (core : Nat) : Bool :=
  p.quadsAt.any (fun y => coreOfQuad y.2 == core && (s.owner y.2).toNat == x.vdev)

/-- A drain begins: the extents in place on the core are to be saved whole (R351). -/
def State.markExtents (s : State) (core : Nat) : State :=
  { s with launches := s.launches.map (fun x => { x with parcels := x.parcels.map (fun p =>
      if p.state == .running && s.placedOn x p core && !(s.coreSaved x.vdev x.lseq p.pseq core) then
        { p with imgExt := insertNat core p.imgExt }
      else p) }) }

/-- Before a core's memory is cleared: what is marked goes into the images (R350, R351). -/
def State.captureCore (s : State) (core : Nat) : State :=
  let s := s.meetPlaces core (fun p => p.imgExt.contains core || p.imgFull.any (fun q => coreOfQuad q == core))
  s.mapParcels (fun p =>
    let p := s.captureFull core p
    if p.imgExt.contains core then s.captureScr core p else p)

/-! ### Saving a warp -/

/-- A thread as it will resume: ready at its resume PC, which is its restart PC, and where a header stands or the instruction at
which it was blocked (R40, R141, R345, R350). Where it stands at a boundary, the strand
behind it is not abandoned, and its instructions are committed (R422). -/
def Thread.saved (t : Thread) (inPre : Bool) : Thread :=
  let pc := if inPre then t.resume else t.pc
  { t with pc := pc, rpc := pc, stat := .ready, needHdr := true, again := true, survW := 0, survM := 0,
           retired := if t.pc = t.rpc then t.retired + t.since else t.retired, since := 0, bpStop := none }

/-- A warp as it will resume, with the hold registers that were saved. The footprints of an abandoned strand stay held until it
has executed again (R256). -/
def Warp.saved (w : Warp) (full : Bool) : Warp :=
  { w.mapThreads w.live (fun _ t => t.saved w.inPre) with
    hold := if full then w.hold else w.savHold, near := [], nearW := [], latch := [], latchV := [], nopre := false,
    inPre := false, savHold := [], last := none, enteredAt := 0, leftAt := none, wide := false, trapWide := false, gang := none,
    wides := [], gangGrps := [], gangEnd := false }

/-- Every non-exited thread has ceded (R349). -/
def Warp.allCeded (w : Warp) : Bool := (laneList w.live).all (fun l => (w.thread l).stat == .ceded)

/-- A job that counts as not started: queued, or a collective that only waits on contributions (R350, R433). -/
def Job.unstarted (j : Job) : Bool :=
  j.state == .queued || (j.kind == .coll && j.state == .running && j.acked && j.collWaits)

/-- Put jobs into a list in queue order. -/
def mergeJobs (js : List Job) (new : List Job) : List Job :=
  new.foldl (fun js j => js.filter (fun x => decide (x.id < j.id)) ++ j :: js.filter (fun x => decide (j.id ≤ x.id))) js

/-- Jobs that have not started leave the queues for the saved images, in queue order (R319, R350). -/
def State.shelve (s : State) (p : Job → Bool) : State :=
  let go (j : Job) : Bool := j.box.isNone && j.unstarted && p j
  { s with jobs := s.jobs.filter (fun j => !(go j)), savedJobs := mergeJobs s.savedJobs (s.jobs.filter go) }

/-- A parcel's state on a core stands there still, be it that another quadrant there has been saved without a warp already. -/
def State.unsaved (s : State) (v : Nat) (l : Word) (p : Parcel) (core : Nat) : Bool :=
  !(s.coreSaved v l p.pseq core) || (p.imgOut.contains core && p.imgFull.any (fun q => coreOfQuad q == core))

/-- What a device leaves in a quadrant on which it has no warp any more: jobs of its exited warps that have not started, and the
extents, tags and accumulators of its running parcels (R319, R350). -/
def State.saveLoose (s : State) (q v : Nat) : State :=
  if s.resident.any (fun gw => quadOfWarp gw == q && (s.warp gw).vdev == v) then s
  else
    let s := s.shelve (fun j => j.vdev == v && quadOfWarp j.gw == q)
    { s with launches := s.launches.map (fun x =>
        if x.vdev == v then { x with parcels := x.parcels.map (fun p =>
          if p.state == .running && p.quadsAt.any (fun y => y.2 == q) && s.unsaved v x.lseq p (coreOfQuad q) then
            { p with imgFull := insertNat q p.imgFull, imgOut := insertNat (coreOfQuad q) p.imgOut }
          else p) }
        else x) }

/-- Write each thread's count to dword 0 of its log (R423). -/
def State.saveCounts (s : State) (gw : Nat) : State :=
  let w := s.warp gw
  match s.launch? w.vdev w.lseq with
  | none => s
  | some x =>
    if !x.replay then s
    else (laneList w.live).foldl (fun (s : State) l =>
      (s.feStore dieA w.vdev (logAddr (s.contract w.vdev) w.num l 0)
        (leBytes 8 (w.thread l).retired.toNat)).1) s

/-- A launch's saved image is to be written anew (R352, R417). -/
def State.stain (s : State) (v : Nat) (l : Word) : State := s.modLaunch v l (fun x => { x with stale := true })

/-- The warp's strand holds a gang whose other members have not all come to the end of theirs (R254). -/
def State.gangOpen (s : State) (gw : Nat) : Bool :=
  !(s.warp gw).gangGrps.isEmpty && !((s.gangOthers gw).all (fun x => (s.warp x).gangEnd))

/-- Where a warp that is saved stands: in the pre-emption handler, whose strand is abandoned; at boundaries, so that a warp-wide
strand that has ended commits; else its threads go back to their restart PCs (R345, R350). -/
def State.settleWarp (s : State) (gw : Nat) : State :=
  let w := s.warp gw
  if w.inPre then s.abandonStrand gw
  else if w.offBoundary = 0 && !(s.gangOpen gw) then s.endWide gw w.live
  else (s.abandonStrand gw).takeBack gw w.offBoundary

/-- Save a warp and free its slot (R349, R350): with `full` in full, else what `SAVE` has named. -/
def State.saveWarp (s : State) (gw : Nat) (full : Bool) : State :=
  let s := ((s.endRun gw).settleWarp gw).saveCounts gw
  let w := s.warp gw
  let s := if full then s.meetOrKill w.vdev w.lseq w.pseq gw [(holdWord gw 0, 8192)] else s
  if !(s.resident.contains gw) then s
  else
    let s := if full then
        s.modParcel w.vdev w.lseq w.pseq (fun p => { p with imgFull := insertNat (quadOfWarp gw) p.imgFull })
      else s
    let s := s.shelve (fun j => j.gw == gw && w.ofParcel j.vdev j.lseq j.pseq)
    let s : State := { s with saved := s.saved ++ [{ gw := gw, warp := w.saved full }] }
    let s := (s.stain w.vdev w.lseq).dropWarp gw
    if (s.quad (quadOfWarp gw)).req.isSome then s.saveLoose (quadOfWarp gw) w.vdev else s

/-! ### Resuming -/

/-- Closures on a core on which jobs of a parcel count are settled, as their bytes are in place again (R294, R434). -/
def State.settleClosures (s : State) (v : Nat) (l : Word) (pq core : Nat) : State :=
  (((s.jobs ++ s.savedJobs).filter (fun j => j.vdev == v && j.lseq == l && j.pseq == pq)).filterMap (fun j =>
    j.clo.bind (fun c => if c.1 = core then some c.2.2 else none))).foldl State.cloSettle s

/-- Restore a parcel's state on a core from its image: what was not saved reads 0 (R350), and closures that jobs counted into meanwhile
are settled (R434). What is read and stored there is met first (R357). -/
def State.restoreCore (s : State) (v : Nat) (l : Word) (pq core : Nat) : State :=
  let s := s.meetPlace core v l pq
  let s := s.modParcel v l pq (s.captureFull core)
  match s.parcel? v l pq with
  | none => s
  | some p =>
    let s := match s.extentOf p core with
      | none => s
      | some (k, n) =>
        let mine (e : Nat × Byte) : Bool := decide (k ≤ e.1) && decide (e.1 < k + n)
        let s := (p.imgScr.filter mine).foldl (fun (s : State) (e : Nat × Byte) => s.setByte e.1 e.2) (s.zero k n)
        s.modParcel v l pq (fun p => { p with imgScr := p.imgScr.filter (fun e => !(mine e)) })
    let x := s.core core
    let s := s.setCore core { x with tags := (s.tagsOf p core).foldl (fun m e =>
      NMap.set 0 m e (NMap.get 0 p.imgTags (256 * core + e))) x.tags }
    let qs := p.accQuads.filter (fun q => coreOfQuad q == core)
    let s := qs.foldl (fun (s : State) q =>
      let a := NMap.get Acc.init p.imgAcc q
      s.setQuad q { s.quad q with work := a, commit := a }) s
    (s.modParcel v l pq (fun p => { p with imgTags := p.imgTags.filter (fun e => !(e.1 / 256 == core)),
                                            imgAcc := p.imgAcc.filter (fun e => !(coreOfQuad e.1 == core)),
                                            imgOut := p.imgOut.filter (fun c => c != core) })).settleClosures v l pq core

/-- `RETIRED` on resume: 0, or under replay what dword 0 of the thread's log gives (R422, R423). -/
def State.countOf (s : State) (w : Warp) (l : Nat) : Dword :=
  match s.launch? w.vdev w.lseq with
  | none => 0
  | some x =>
    if !x.replay then 0
    else
      match (s.feRead dieA w.vdev (logAddr (s.contract w.vdev) w.num l 0) 8).2 with
      | .ok bs => BitVec.ofNat 64 (leNat bs)
      | .error _ => (w.thread l).retired

/-- One saved warp stands in its slot again, and its launch's key is in force in the bank set (R172, R352). -/
def State.resumeWarp (s : State) (x : Saved) : State :=
  let w := x.warp
  let core := coreOfQuad (quadOfWarp x.gw)
  let c := s.core core
  let key := (s.launch? w.vdev w.lseq).elim 0 (·.key)
  let s := s.setCore core { c with keys := NMap.set 0 c.keys (s.setOf core (quadOfWarp x.gw % 4)).1 key }
  let s := { s with saved := s.saved.filter (fun y => !(y == x)), resident := insertNat x.gw s.resident }
  let s := (s.stain w.vdev w.lseq).setWarp x.gw w
  s.setWarp x.gw (w.mapThreads w.live (fun l t => { t with retired := s.countOf w l }))

/-- What stood in a quadrant of a device may come back: the device owns it and has issue rights, and the core is in service
(R352, R358, R409). -/
def State.mayReturn (s : State) (gw v : Nat) : Bool :=
  let c := s.core (coreOfQuad (quadOfWarp gw))
  (s.owner (quadOfWarp gw)).toNat == v && (s.contract v).rights && c.survey == .none && c.service

/-- A saved warp may come back, and no halt holds it (R417). -/
def State.mayResume (s : State) (x : Saved) : Bool := x.warp.halts.isEmpty && s.mayReturn x.gw x.warp.vdev

/-- A saved job goes back to its queue: its warp is not saved any more, and its quadrant may run (R352). -/
def State.jobReturns (s : State) (j : Job) : Bool :=
  s.mayReturn j.gw j.vdev && !(s.saved.any (fun x => x.gw == j.gw && x.warp.ofParcel j.vdev j.lseq j.pseq))

/-- Saved jobs go back to the queues in queue order (R313, R319). -/
def State.returnJobs (s : State) : State :=
  let js := s.savedJobs.filter s.jobReturns
  { s with savedJobs := s.savedJobs.filter (fun j => !(s.jobReturns j)), jobs := mergeJobs s.jobs js }

/-- Cores to which the state of a parcel without a warp there may come back (R319, R350): device, `LSEQ`, `PSEQ`, core. -/
def State.outSpots (s : State) : List (Nat × Word × Nat × Nat) :=
  (s.launches.map (fun x => (x.parcels.map (fun p =>
    (p.imgOut.filter (fun c => p.quadsAt.any (fun y => coreOfQuad y.2 == c && s.mayReturn (16 * y.2) x.vdev))).map (fun c =>
      (x.vdev, x.lseq, p.pseq, c)))).flatten)).flatten

/-- Parcels whose state on a core comes back with saved warps or jobs, or without: none of their warps stands there. -/
def State.bareSpots (s : State) (xs : List Saved) : List (Nat × Word × Nat × Nat) :=
  let spots := (xs.map (fun x => (x.warp.vdev, x.warp.lseq, x.warp.pseq, coreOfQuad (quadOfWarp x.gw))) ++
    (s.savedJobs.filter s.jobReturns).map (fun j => (j.vdev, j.lseq, j.pseq, coreOfQuad (quadOfWarp j.gw))) ++ s.outSpots).eraseDups
  spots.filter (fun y => !((s.warpsOf y.1 y.2.1 y.2.2.1).any (fun gw => coreOfQuad (quadOfWarp gw) == y.2.2.2)))

/-- Resume every saved warp that `p` holds of and that may come back, and the jobs that may. Where no warp of its parcel stands on
the core, the parcel's state there is restored first (R352). -/
def State.resumeWhere (s : State) (p : Saved → Bool) : State :=
  let may (s : State) : List Saved := s.saved.filter (fun x => p x && s.mayResume x)
  let s := (s.bareSpots (may s)).foldl (fun (s : State) y => s.restoreCore y.1 y.2.1 y.2.2.1 y.2.2.2) s
  ((may s).foldl State.resumeWarp s).returnJobs

/-- Running parcels whose extent on a core a drain has taken: device, `LSEQ`, `PSEQ`. -/
def State.drainedHere (s : State) (core : Nat) : List (Nat × Word × Nat) :=
  (s.launches.map (fun x => (x.parcels.filter (fun p => p.imgExt.contains core && s.placedOn x p core)).map (fun p =>
    (x.vdev, x.lseq, p.pseq)))).flatten

/-- A drained core comes back: the extents that the drain has taken are in place again, and saved warps resume; what a warp
that stays saved needs is marked again (R351, R352, R358). -/
def State.resumeCore (s : State) (core : Nat) : State :=
  let ps := s.drainedHere core
  let s := ps.foldl (fun (s : State) y => (s.restoreCore y.1 y.2.1 y.2.2 core).modParcel y.1 y.2.1 y.2.2 (fun p =>
    { p with imgExt := p.imgExt.filter (fun c => c != core) })) s
  let here (x : Saved) : Bool :=
    coreOfQuad (quadOfWarp x.gw) == core && ps.contains (x.warp.vdev, x.warp.lseq, x.warp.pseq)
  let xs := s.saved.filter (fun x => here x && s.mayResume x)
  let s := (xs.foldl State.resumeWarp s).returnJobs
  let s := (s.saved.filter here).foldl (fun (s : State) (x : Saved) =>
    s.modParcel x.warp.vdev x.warp.lseq x.warp.pseq (fun p => { p with imgFull := insertNat (quadOfWarp x.gw) p.imgFull })) s
  s.resumeWhere (fun x => coreOfQuad (quadOfWarp x.gw) == core)

end Sys2Proof.Machine
end

