-- ==== Sys2Proof/Machine/Exit.lean ====
section
/-! DEFINITION. `EXIT` and its compact form (spec/06 R127, spec/02 R21). -/

namespace Sys2Proof.Machine

/-- What an exiting thread has outstanding: loads, special functions, old values and lookups are discarded (R127). -/
def Flight.exitDrop (f : Flight) (gw : Nat) (m : Mask) : Flight :=
  if f.gw == gw && (f.kind == .sfu || f.kind == .load || f.kind == .atomic || f.kind == .tagq) then f.without m else f

/-- Clear exited lanes from the rejoin masks (R27). -/
def Warp.leaveMasks (w : Warp) (m : Mask) : Warp :=
  { w with rejoin := (List.range 16).foldl (fun n j => NMap.set 0 n j (NMap.get 0 n j &&& ~~~ m)) w.rejoin }

/-- A read of an exiting thread that has met a word or sector it cannot deliver (R354, R400): the exit discards its
result, and not the kill. -/
def State.metKill (s : State) (gw : Nat) (m : Mask) : Option Flight :=
  s.flights.find? (fun f => f.gw == gw && (f.mask &&& m) != 0 && f.kill != 0)

/-- The last thread of a warp that ends in the trap handler leaves the strand behind it unsealed: the working image reverts
(R245), and the members of its gangs are taken back (R254). -/
def State.revertBehind (s : State) (gw : Nat) : State :=
  if (s.warp gw).trapWide then (s.gangOthers gw).foldl State.memberBack (s.revertAcc (quadOfWarp gw) gw) else s

/-- The threads of `g` end, in the warp as it stands after the instruction; a warp whose last thread ends leaves its slot
and position, and one whose other threads have all ceded is saved (R21, R27, R127, R168, R256, R349). -/
def State.endThreads (s : State) (w : Warp) (g : Mask) : State :=
  let gw := s.iss.gw
  let w := w.mapThreads g (fun _ t => { t with retired := t.retired + t.since + 1, since := 0 })
  let w := (({ w with live := w.live &&& ~~~ g }).leaveMasks g).wake
  let fs := sweepFlights (s.flights.map (fun f => f.exitDrop gw g))
  let s := { s with flights := fs }.setIw w
  let s :=
    if w.live = 0 then
      let s := ((s.endWide gw g).revertBehind gw).dropWarp gw
      if (s.quad (quadOfWarp gw)).req.isSome then s.saveLoose (quadOfWarp gw) w.vdev else s
    else if w.inPre && w.allCeded then s.saveWarp gw false
    else s
  s.checkTrigger w.vdev w.lseq w.pseq

/-- `EXIT` for the threads of `g`: they end, the others of the set go on (R127). -/
def State.exitLanes (s : State) (g : Mask) : State :=
  let w := s.iw.advanceIn s.iss (s.iss.mask &&& ~~~ g)
  if g = 0 then s.setIw w
  else
    match s.metKill s.iss.gw g with
    | some f => s.killFlight f f.kill
    | none => s.endThreads w g

/-- An `EXIT` that leaves no thread ends the warp's strand (R254). -/
def exitShape (s : State) (g : Guard) : Shape :=
  { Shape.plain g with seals := (s.iw.live &&& ~~~ (s.iw.guarded s.iss.mask g)) == 0 }

/-- `EXIT` (R127). -/
def execExit (h : Hdr) (s : State) : Res :=
  s.guardedRun (exitShape s h.guard) (s.exitLanes (s.iw.guarded s.iss.mask h.guard))

/-- Compact `EXIT` (R69, R127). -/
def execExitC (s : State) : Res :=
  s.guardedRun (exitShape s hdrC.guard) (s.exitLanes (s.iw.guarded s.iss.mask hdrC.guard))

end Sys2Proof.Machine
end

