-- ==== Sys2Proof/Machine/Sys.lean ====
section
/-! DEFINITION. The SYS family (spec/09 R223 to R228; spec/18 R346 to R349; spec/22 R416, R421): special registers, `CEDE`,
`SAVE`, `TRAPRET`, `WATCH`, `PROF`, `NOP`, and `WATCH_SLOT_INSTALLED`. -/

namespace Sys2Proof.Machine

/-! ### SRR and SRW -/

def platCode : PlatSt → Nat
  | .idle => 0
  | .evacuating => 1
  | .moving => 2

/-- Highest swath not yet completed while a tier moves, else 0 (R395, R398). -/
def Tier.top (t : Tier) : Nat := if t.st = .moving then t.swaths - 1 else 0

/-- `PLATPHASE` (R395). -/
def State.platphase (s : State) : Dword :=
  BitVec.ofNat 64 (platCode s.cxl.st * 2 ^ 58 + s.cxl.phase % 256 * 2 ^ 50 + s.cxl.top % 2 ^ 21 * 2 ^ 29 +
    platCode s.hbm.st * 2 ^ 27 + s.hbm.phase % 256 * 2 ^ 19 + s.hbm.top % 2 ^ 19)

/-- `CAPHBM`, `CAPCXL` (R394). -/
def Tier.cap (t : Tier) : Dword := BitVec.ofNat 64 (t.limit * 2 ^ 32 + t.units.toNat)

/-- The value of a special register in a lane of the issuing set (R226). -/
def State.sreg (s : State) (r : SReg) (l : Nat) : Dword :=
  let w := s.iw
  let t := w.thread l
  let q := s.iss.quad
  match r with
  | .laneid => BitVec.ofNat 64 l
  | .warpslot => BitVec.ofNat 64 s.iss.slot
  | .quad => BitVec.ofNat 64 (q % 4)
  | .core => BitVec.ofNat 64 (q / 4 % 4)
  | .tract => BitVec.ofNat 64 (q / 16 % 12)
  | .die => BitVec.ofNat 64 (dieOfQuad q)
  | .groups => w.groups.setWidth 64
  | .launch => BitVec.ofNat 64 (w.vdev % 65536 * 2 ^ 32 + w.lseq.toNat)
  | .parcel => BitVec.ofNat 64 (w.lq % 16 * 4096 + w.pseq % 1024)
  | .strandpc => canon t.rpc &&& ~~~ (3 : Dword)
  | .cspbase => canon w.cspbase &&& ~~~ (15 : Dword)
  | .cspdepth => BitVec.ofNat 64 (w.stride.toNat * 2 ^ 32 + t.live * 2 ^ 16 + t.depth.toNat)
  | .clock => BitVec.ofNat 64 s.iss.clk
  | .retired => t.retired
  | .caphbm => s.hbm.cap
  | .capcxl => s.cxl.cap
  | .platphase => s.platphase
  | .spotcnt => (s.quad q).work.cnt
  | .spotvar => zx (s.quad q).work.var
  | .spotnrm => zx (s.quad q).work.nrm
  | .faultseq => BitVec.ofNat 64 (t.trap.fseq.toNat * 2 ^ 32 + t.trap.cause.toNat * 2 ^ 24 + b2n t.trap.inTrap * 2 ^ 23)

/-- `SRR` as a register instruction. -/
def State.srrDesc (s : State) (h : Hdr) (r : SReg) (d : Dst) : Desc :=
  { guard := h.guard, lit := h.lit, srcs := [], tgt := .reg d true, xlane := false, fn := fun _ _ _ _ l => s.sreg r l }

/-- `SRR` (R226). -/
def execSrr (h : Hdr) (r : SReg) (d : Dst) (s : State) : Res := (s.srrDesc h r d).run s

/-- `SRW` (R227): no register of R226 has a field marked `RW` or `WO`, so no register changes; the strand seals. -/
def execSrw (h : Hdr) (_r : SReg) (b : Opd) (s : State) : Res :=
  s.guardedRun (Shape.sealing h.guard [(b, 2)]) s.sealNext

/-- `NOP` (R228). -/
def execNop (h : Hdr) (s : State) : Res := s.guardedRun (Shape.plain h.guard) (s.setIw (s.iw.advance s.iss))

/-! ### CEDE (R346, R349) -/

/-- `.hold` and `.open`: once per issue when some lane is guard-true; in the handler they only seal. -/
def State.cedeSet (s : State) (g : Mask) (v : Bool) : State :=
  let w := s.iw
  if g = 0 || w.inPre then s.sealNext else (s.setIw { w with nopre := v }).sealNext

def execCedeHold (h : Hdr) (s : State) : Res :=
  s.guardedRun (Shape.sealing h.guard []) (s.cedeSet (s.iw.guarded s.iss.mask h.guard) true)

def execCedeOpen (h : Hdr) (s : State) : Res :=
  s.guardedRun (Shape.sealing h.guard []) (s.cedeSet (s.iw.guarded s.iss.mask h.guard) false)

/-- Plain `CEDE`: the guard-true threads block for good; with the last of them the warp is saved and leaves its slot. -/
def State.cede (s : State) (g : Mask) : State :=
  if g = 0 then s.sealNext
  else if !s.iw.inPre then s.take (Exc.of 0x27 g)
  else
    let s := s.sealBlock g .ceded
    if s.iw.allCeded then s.saveWarp s.iss.gw false else s

def execCede (h : Hdr) (s : State) : Res :=
  s.guardedRun (Shape.sealing h.guard []) (s.cede (s.iw.guarded s.iss.mask h.guard))

/-! ### SAVE (R347, R348) -/

/-- `SAVE` is warp-wide and legal in the pre-emption handler only. -/
def State.saveIssue (s : State) (g : Guard) (body : State → State) : State :=
  s.wholeIssue g State.sealNext (fun s => if s.iw.inPre then body s else s.take (Exc.of 0x27 s.iss.mask))

/-- Registers a..a+b-1 of every non-exited thread, as they stand, go into the image. -/
def Warp.nameHold (w : Warp) (a b : Nat) : Warp :=
  { w with savHold := (laneList w.live).foldl (fun m l =>
      (List.range b).foldl (fun m k => NMap.set 0 m (256 * l + (a + k)) (w.getHold l (a + k))) m) w.savHold }

def execSaveHold (h : Hdr) (a b : Opd) (s : State) : Res :=
  s.guardedRun (Shape.sealing h.guard [(a, 1), (b, 1)])
    (s.saveIssue h.guard (fun s =>
      let x := (s.handleOf h a).toNat
      let n := (s.handleOf h b).toNat
      if n = 0 || decide (s.iw.hc < x + n) then s.take (Exc.of 0x0D s.iss.mask)
      else (s.setIw (s.iw.nameHold x n)).sealNext))

/-- Change the parcel of the issuing warp. -/
def State.modOwn (s : State) (f : Parcel → Parcel) : State := s.modParcel s.iw.vdev s.iw.lseq s.iw.pseq f

/-- A running job whose write region overlaps a range of scratchpad keys (R348). -/
def State.writesInto (s : State) (k n : Nat) : Bool :=
  s.jobs.any (fun j => j.state != .queued && j.writes.any (fun r => r.meets (scrRegion k (k + n))))

def execSaveScr (h : Hdr) (a b : Opd) (s : State) : Res :=
  s.guardedRun (Shape.sealing h.guard [(a, 1), (b, 1)])
    (s.saveIssue h.guard (fun s =>
      let x := (s.handleOf h a).toNat
      let n := (s.handleOf h b).toNat
      if x % 16 ≠ 0 || n % 16 ≠ 0 then s.take (Exc.of 0x0C s.iss.mask)
      else
        match s.scratch s.iw (coreOfQuad s.iss.quad) x n with
        | none => s.take (Exc.of 0x0D s.iss.mask)
        | some k =>
          if s.writesInto k n then s.waits 0
          else
            match s.meetRead k n with
            | .error c => s.take (Exc.of c s.iss.mask)
            | .ok s => let s := s.modOwn (fun p => { p with imgScr := captureBytes s.mem p.imgScr k n })
              s.sealNext))

/-- `SAVE.acc` (R348): the committed image as it stands before the instruction seals its own strand (assumption 49). -/
def execSaveAcc (h : Hdr) (s : State) : Res :=
  s.guardedRun (Shape.sealing h.guard [])
    (s.saveIssue h.guard (fun s =>
      if !(s.isAccWarp s.iss.gw) then s.take (Exc.of 0x0D s.iss.mask)
      else
        let q := s.iss.quad
        let a := s.committed q
        let s := s.modOwn (fun p => { p with imgAcc := NMap.set Acc.init p.imgAcc q a })
        s.sealNext))

def execSaveTag (h : Hdr) (s : State) : Res :=
  s.guardedRun (Shape.sealing h.guard [])
    (s.saveIssue h.guard (fun s => (s.modOwn (s.captureTags (coreOfQuad s.iss.quad))).sealNext))

/-! ### TRAPRET (R224) -/

/-- The warp-wide strand behind the handler: with `.skip` it goes on, with `.restart` it is abandoned (R42, R245, R254). -/
def State.resumeWide (s : State) (gw : Nat) (skip : Bool) : State :=
  let w := s.warp gw
  if !w.trapWide then s
  else
    let s := s.setWarp gw { w with wide := true, trapWide := false }
    if skip then s else s.abandonStrand gw

/-- Threads of `g` leave the handler; those outside it trap `NOT_IN_TRAP`. -/
def State.trapReturn (s : State) (g : Mask) (skip : Bool) : State :=
  let w := s.iw
  let bad := maskOf (fun l => hasLane g l && !(w.thread l).trap.inTrap)
  if bad != 0 && w.wide then s.take (Exc.of 0x23 bad)
  else
    let w := w.advanceIn s.iss (s.iss.mask &&& ~~~ g)
    let w := w.mapThreads (g &&& ~~~ bad) (fun _ t => { t.trapReturn skip with stat := .ready })
    let s := s.setIw w
    let s := if (g &&& ~~~ bad) = 0 then s else s.resumeWide s.iss.gw skip
    s.takeAll (excIf 0x23 bad)

def execTrapretRestart (h : Hdr) (s : State) : Res :=
  s.guardedRun (Shape.plain h.guard) (s.trapReturn (s.iw.guarded s.iss.mask h.guard) false)

def execTrapretSkip (h : Hdr) (s : State) : Res :=
  s.guardedRun (Shape.plain h.guard) (s.trapReturn (s.iw.guarded s.iss.mask h.guard) true)

/-! ### WATCH (R413, R416) -/

/-- Write watch slot i of a device: kind, address, length; `LSEQ` is 0. -/
def Contract.setWatch (c : Contract) (i kind : Nat) (addr : Dword) (len : Nat) : Contract :=
  let d := NMap.set 0 c.debug (4 + 2 * i) (BitVec.ofNat 64 (kind * 2 ^ 62 + field addr 56 0))
  { c with debug := NMap.set 0 d (5 + 2 * i) (BitVec.ofNat 64 (len * 2 ^ 32)) }

/-- The set stalls at an effect already made, until an operation in flight ends, and then goes on after it. -/
def State.stallAfter (s : State) (f : Flight) : State :=
  let s := s.setIw (s.iw.advance s.iss)
  let s := s.waits s.nextId
  s.launchFlight f

/-- `WATCH` for the lanes of `g`, with the operands of the lowest. -/
def State.watch (s : State) (g : Mask) (slot kind : Nat) (addr : Dword) (len : Nat) : State :=
  if g = 0 then s.pastBut 0
  else if 8 ≤ slot || (kind != 0 && len == 0) then s.take (Exc.of 0x0D g)
  else if kind != 0 && (!(canonical addr) || decide (2 ^ 57 < field addr 56 0 + len)) then s.take (Exc.of 0x0B g)
  else
    let v := s.iw.vdev
    let s := s.setContract v ((s.contract v).setWatch slot kind addr len)
    s.stallAfter (s.flightOf .watch s.iss.mask 0 false [])

/-- An operand of the lowest guard-true lane. -/
def State.lead (s : State) (h : Hdr) (o : Opd) (ty : Ty) : Dword :=
  o.val s.iw s.iss h.lit (lowest (s.iw.guarded s.iss.mask h.guard)) ty

def execWatchOff (h : Hdr) (c : Opd) (s : State) : Res :=
  s.guardedRun (Shape.reading h.guard [(c, 1)])
    (s.watch (s.iw.guarded s.iss.mask h.guard) (lo32 (s.lead h c .i32)).toNat 0 0 0)

def execWatchW (h : Hdr) (a b c : Opd) (s : State) : Res :=
  s.guardedRun (Shape.reading h.guard [(a, 2), (b, 1), (c, 1)])
    (s.watch (s.iw.guarded s.iss.mask h.guard) (lo32 (s.lead h c .i32)).toNat 2 (s.lead h a .i64)
      (lo32 (s.lead h b .i32)).toNat)

def execWatchRw (h : Hdr) (a b c : Opd) (s : State) : Res :=
  s.guardedRun (Shape.reading h.guard [(a, 2), (b, 1), (c, 1)])
    (s.watch (s.iw.guarded s.iss.mask h.guard) (lo32 (s.lead h c .i32)).toNat 3 (s.lead h a .i64)
      (lo32 (s.lead h b .i32)).toNat)

/-- `WATCH_SLOT_INSTALLED`: every die holds the slot and the set goes on (R416). -/
def dueWatchSlotInstalled (id : Nat) (s : State) : Option State :=
  match s.flight? id .watch with
  | none => none
  | some f => some (s.land f)

/-- `WATCH_SLOT_INSTALLED`: as `dueWatchSlotInstalled` has it; while the event is not due it does not take place, and nothing changes (assumption 14). -/
def execWatchSlotInstalled (id : Nat) (s : State) : Res :=
  State.after s (dueWatchSlotInstalled id s)

/-! ### PROF (R418, R421) -/

/-- The stopped runs of a quadrant of which a memory record is still to be written, once a new run starts (R421, R426). -/
def State.runsBefore (s : State) (q : Nat) : List Sampler :=
  let x := s.quad q
  (x.sampler.stop :: x.oldRuns).filter
    (fun m => s.flights.any (fun f => f.iss.quad == q && f.sample.any (fun e => e.run == m.start)))

/-- Start the quadrant's sampler: the checks in order, then the header. -/
def State.profStart (s : State) (g : Mask) (mode : Nat) (base : Dword) (per cap : Nat) : State :=
  let least : Nat := if mode = 1 then 16 else 1
  if g = 0 then s.pastBut 0
  else if base.toNat % 64 ≠ 0 then s.take (Exc.of 0x0C g)
  else if !(canonical base) then s.take (Exc.of 0x0B g)
  else if !(decide (least ≤ per) && decide (per ≤ 2 ^ 24) && decide (1 ≤ cap) && decide (cap ≤ 65535)) then
    s.take (Exc.of 0x0D g)
  else
    let q := s.iss.quad
    let m : Sampler := { mode := mode, vdev := s.iw.vdev, base := base, per := per, cap := cap, fill := 0, drop := 0,
                         start := s.iss.clk, count := 0, next := 0 }
    match s.feStore (dieOfQuad q) s.iw.vdev base (dwordBytes m.header) with
    | (u, .error c) => u.take ({ Exc.of c g with pages := [pageOf base.toNat] } : Exc)
    | (u, .ok _) =>
      let u := u.markSampler q s.nextId
      let u := u.setQuad q { u.quad q with sampler := m, oldRuns := s.runsBefore q }
      u.setIw (u.iw.advance u.iss)

/-- What is outstanding of a quadrant's samples: held writes of records and headers, and operations whose samples are still to be
written (R389, R421, R426). -/
def State.sampleHeld (s : State) (q : Nat) : List Nat :=
  (s.held.filter (fun h => h.smp == some q)).map (·.id) ++
  (s.flights.filter (fun f => f.iss.quad == q && f.sample.isSome)).map (·.id)

/-- `PROF.stop`: no sample from this clock on; the set waits for the writes outstanding. -/
def State.profStop (s : State) (g : Mask) : State :=
  if g = 0 then s.pastBut 0
  else
    let q := s.iss.quad
    let hs := s.sampleHeld q
    let s := s.setQuad q { s.quad q with sampler := (s.quad q).sampler.stop }
    if hs.isEmpty then s.setIw (s.iw.advance s.iss)
    else s.stallAfter { s.flightOf .store s.iss.mask 0 false [] with behind := hs }

def execProfStall (h : Hdr) (a b c : Opd) (s : State) : Res :=
  s.guardedRun (Shape.reading h.guard [(a, 2), (b, 1), (c, 1)])
    (s.profStart (s.iw.guarded s.iss.mask h.guard) 1 (s.lead h a .i64) (lo32 (s.lead h b .i32)).toNat
      (lo32 (s.lead h c .i32)).toNat)

def execProfMem (h : Hdr) (a b c : Opd) (s : State) : Res :=
  s.guardedRun (Shape.reading h.guard [(a, 2), (b, 1), (c, 1)])
    (s.profStart (s.iw.guarded s.iss.mask h.guard) 2 (s.lead h a .i64) (lo32 (s.lead h b .i32)).toNat
      (lo32 (s.lead h c .i32)).toNat)

def execProfStop (h : Hdr) (s : State) : Res :=
  s.guardedRun (Shape.plain h.guard) (s.profStop (s.iw.guarded s.iss.mask h.guard))

end Sys2Proof.Machine
end

