-- ==== Sys2Proof/Machine/Uses.lean ====
section
/-! DEFINITION. What each instruction reads and writes, for the scoreboard (spec/07 R161, spec/05 R97), run-ahead (spec/09
R216) and the choice of a unit: registers, predicates, whether it seals (spec/02 R39); and the instructions that read and
write registers only. -/

namespace Sys2Proof

open Machine

def mkShape (g : Guard) (srcs : List (Opd × Nat)) (dsts : List (DReg × Nat)) (strand seals : Bool) : Shape :=
  { guard := g, srcs := srcs, dsts := dsts, strand := strand, seals := seals }

/-- Registers that an instruction names, with the number of registers of each, and whether it seals its strand. An event of
the part names none. -/
def Instr.shape : Instr → Shape
  | .add h w d a b => mkShape h.guard [(a, (widthTy w).regs), (b, (widthTy w).regs)] (d.regs (widthTy w).regs) false false
  | .sub h w d a b => mkShape h.guard [(a, (widthTy w).regs), (b, (widthTy w).regs)] (d.regs (widthTy w).regs) false false
  | .mul h w d a b => mkShape h.guard [(a, (widthTy w).regs), (b, (widthTy w).regs)] (d.regs (widthTy w).regs) false false
  | .mulh h w d a b => mkShape h.guard [(a, (widthTy w).regs), (b, (widthTy w).regs)] (d.regs (widthTy w).regs) false false
  | .mulhn h w d a b => mkShape h.guard [(a, (widthTy w).regs), (b, (widthTy w).regs)] (d.regs (widthTy w).regs) false false
  | .div h w d a b => mkShape h.guard [(a, (widthTy w).regs), (b, (widthTy w).regs)] (d.regs (widthTy w).regs) false false
  | .divn h w d a b => mkShape h.guard [(a, (widthTy w).regs), (b, (widthTy w).regs)] (d.regs (widthTy w).regs) false false
  | .rem h w d a b => mkShape h.guard [(a, (widthTy w).regs), (b, (widthTy w).regs)] (d.regs (widthTy w).regs) false false
  | .remn h w d a b => mkShape h.guard [(a, (widthTy w).regs), (b, (widthTy w).regs)] (d.regs (widthTy w).regs) false false
  | .minS h w d a b => mkShape h.guard [(a, (widthTy w).regs), (b, (widthTy w).regs)] (d.regs (widthTy w).regs) false false
  | .maxS h w d a b => mkShape h.guard [(a, (widthTy w).regs), (b, (widthTy w).regs)] (d.regs (widthTy w).regs) false false
  | .minn h w d a b => mkShape h.guard [(a, (widthTy w).regs), (b, (widthTy w).regs)] (d.regs (widthTy w).regs) false false
  | .maxn h w d a b => mkShape h.guard [(a, (widthTy w).regs), (b, (widthTy w).regs)] (d.regs (widthTy w).regs) false false
  | .andB h w d a b => mkShape h.guard [(a, (widthTy w).regs), (b, (widthTy w).regs)] (d.regs (widthTy w).regs) false false
  | .orB h w d a b => mkShape h.guard [(a, (widthTy w).regs), (b, (widthTy w).regs)] (d.regs (widthTy w).regs) false false
  | .xorB h w d a b => mkShape h.guard [(a, (widthTy w).regs), (b, (widthTy w).regs)] (d.regs (widthTy w).regs) false false
  | .andn h w d a b => mkShape h.guard [(a, (widthTy w).regs), (b, (widthTy w).regs)] (d.regs (widthTy w).regs) false false
  | .orn h w d a b => mkShape h.guard [(a, (widthTy w).regs), (b, (widthTy w).regs)] (d.regs (widthTy w).regs) false false
  | .shl h w d a b => mkShape h.guard [(a, (widthTy w).regs), (b, 1)] (d.regs (widthTy w).regs) false false
  | .shr h w d a b => mkShape h.guard [(a, (widthTy w).regs), (b, 1)] (d.regs (widthTy w).regs) false false
  | .sar h w d a b => mkShape h.guard [(a, (widthTy w).regs), (b, 1)] (d.regs (widthTy w).regs) false false
  | .rol h w d a b => mkShape h.guard [(a, (widthTy w).regs), (b, 1)] (d.regs (widthTy w).regs) false false
  | .ror h w d a b => mkShape h.guard [(a, (widthTy w).regs), (b, 1)] (d.regs (widthTy w).regs) false false
  | .mad h w d a b c => mkShape h.guard [(a, (widthTy w).regs), (b, (widthTy w).regs), (c, (widthTy w).regs)] (d.regs (widthTy w).regs) false false
  | .madh h w d a b c => mkShape h.guard [(a, (widthTy w).regs), (b, (widthTy w).regs), (c, (widthTy w).regs)] (d.regs (widthTy w).regs) false false
  | .lea h w d a b c => mkShape h.guard [(a, (widthTy w).regs), (b, 1), (c, 1)] (d.regs (widthTy w).regs) false false
  | .bfx h w d a b => mkShape h.guard [(a, (widthTy w).regs), (b, 1)] (d.regs (widthTy w).regs) false false
  | .bfi h w d a b c => mkShape h.guard [(a, (widthTy w).regs), (b, (widthTy w).regs), (c, 1)] (d.regs (widthTy w).regs) false false
  | .sel h w d a b _ => mkShape h.guard [(a, (widthTy w).regs), (b, (widthTy w).regs)] (d.regs (widthTy w).regs) false false
  | .add3 h w d a b c => mkShape h.guard [(a, (widthTy w).regs), (b, (widthTy w).regs), (c, (widthTy w).regs)] (d.regs (widthTy w).regs) false false
  | .mov h w d a => mkShape h.guard [(a, (widthTy w).regs)] (d.regs (widthTy w).regs) false false
  | .neg h w d a => mkShape h.guard [(a, (widthTy w).regs)] (d.regs (widthTy w).regs) false false
  | .abs h w d a => mkShape h.guard [(a, (widthTy w).regs)] (d.regs (widthTy w).regs) false false
  | .notB h w d a => mkShape h.guard [(a, (widthTy w).regs)] (d.regs (widthTy w).regs) false false
  | .popc h w d a => mkShape h.guard [(a, (widthTy w).regs)] (d.regs (widthTy w).regs) false false
  | .clz h w d a => mkShape h.guard [(a, (widthTy w).regs)] (d.regs (widthTy w).regs) false false
  | .ctz h w d a => mkShape h.guard [(a, (widthTy w).regs)] (d.regs (widthTy w).regs) false false
  | .brev h w d a => mkShape h.guard [(a, (widthTy w).regs)] (d.regs (widthTy w).regs) false false
  | .sext8 h w d a => mkShape h.guard [(a, (widthTy w).regs)] (d.regs (widthTy w).regs) false false
  | .sext16 h w d a => mkShape h.guard [(a, (widthTy w).regs)] (d.regs (widthTy w).regs) false false
  | .zext8 h w d a => mkShape h.guard [(a, (widthTy w).regs)] (d.regs (widthTy w).regs) false false
  | .zext16 h w d a => mkShape h.guard [(a, (widthTy w).regs)] (d.regs (widthTy w).regs) false false
  | .cmp h _ w _ _ a b => mkShape h.guard [(a, (widthTy w).regs), (b, (widthTy w).regs)] [] false false
  | .fadd h _ d a b => mkShape h.guard [(a, 1), (b, 1)] (d.regs 1) false false
  | .fsub h _ d a b => mkShape h.guard [(a, 1), (b, 1)] (d.regs 1) false false
  | .fmul h _ d a b => mkShape h.guard [(a, 1), (b, 1)] (d.regs 1) false false
  | .fmin h d a b => mkShape h.guard [(a, 1), (b, 1)] (d.regs 1) false false
  | .fmax h d a b => mkShape h.guard [(a, 1), (b, 1)] (d.regs 1) false false
  | .fminp h d a b => mkShape h.guard [(a, 1), (b, 1)] (d.regs 1) false false
  | .fmaxp h d a b => mkShape h.guard [(a, 1), (b, 1)] (d.regs 1) false false
  | .fscale h _ d a b => mkShape h.guard [(a, 1), (b, 1)] (d.regs 1) false false
  | .hadd2 h _ _ d a b => mkShape h.guard [(a, 1), (b, 1)] (d.regs 1) false false
  | .hsub2 h _ _ d a b => mkShape h.guard [(a, 1), (b, 1)] (d.regs 1) false false
  | .hmul2 h _ _ d a b => mkShape h.guard [(a, 1), (b, 1)] (d.regs 1) false false
  | .hmin2 h _ d a b => mkShape h.guard [(a, 1), (b, 1)] (d.regs 1) false false
  | .hmax2 h _ d a b => mkShape h.guard [(a, 1), (b, 1)] (d.regs 1) false false
  | .ffma h _ d a b c => mkShape h.guard [(a, 1), (b, 1), (c, 1)] (d.regs 1) false false
  | .ffms h _ d a b c => mkShape h.guard [(a, 1), (b, 1), (c, 1)] (d.regs 1) false false
  | .fnma h _ d a b c => mkShape h.guard [(a, 1), (b, 1), (c, 1)] (d.regs 1) false false
  | .hfma2 h _ _ d a b c => mkShape h.guard [(a, 1), (b, 1), (c, 1)] (d.regs 1) false false
  | .fabs h d a => mkShape h.guard [(a, 1)] (d.regs 1) false false
  | .fneg h d a => mkShape h.guard [(a, 1)] (d.regs 1) false false
  | .frnd h _ d a => mkShape h.guard [(a, 1)] (d.regs 1) false false
  | .fclass h d a => mkShape h.guard [(a, 1)] (d.regs 1) false false
  | .fsat h d a => mkShape h.guard [(a, 1)] (d.regs 1) false false
  | .fcmp h _ _ _ _ a b => mkShape h.guard [(a, 1), (b, 1)] [] false false
  | .cvt h p _ d a => mkShape h.guard [(a, (cvtTy p).regs)] (d.regs (if cvtWide p then 2 else 1)) false false
  | .rcp h d a => mkShape h.guard [(a, 1)] (d.regs 1) false false
  | .rsq h d a => mkShape h.guard [(a, 1)] (d.regs 1) false false
  | .sqrt h d a => mkShape h.guard [(a, 1)] (d.regs 1) false false
  | .exp2 h d a => mkShape h.guard [(a, 1)] (d.regs 1) false false
  | .log2 h d a => mkShape h.guard [(a, 1)] (d.regs 1) false false
  | .sinpi h d a => mkShape h.guard [(a, 1)] (d.regs 1) false false
  | .cospi h d a => mkShape h.guard [(a, 1)] (d.regs 1) false false
  | .tanh h d a => mkShape h.guard [(a, 1)] (d.regs 1) false false
  | .sigm h d a => mkShape h.guard [(a, 1)] (d.regs 1) false false
  | .divf h d a b => mkShape h.guard [(a, 1), (b, 1)] (d.regs 1) false false
  | .bra h _ => mkShape h.guard [] [] false false
  | .brx h a => mkShape h.guard [(a, 2)] [] false false
  | .call h _ => mkShape h.guard [] [] false true
  | .callx h a => mkShape h.guard [(a, 2)] [] false true
  | .ret h => mkShape h.guard [] [] false true
  | .exit h => mkShape h.guard [] [] false false
  | .trap h a => mkShape h.guard [(a, 1)] [] false false
  | .brk h => mkShape h.guard [] [] false false
  | .jset h _ => mkShape h.guard [] [] false false
  | .jadd h _ => mkShape h.guard [] [] false false
  | .jclr h _ => mkShape h.guard [] [] false false
  | .waitj h _ => { mkShape h.guard [] [] false true with blocks := true }
  | .elect h _ => mkShape h.guard [] [] false false
  | .sleepj h _ => { mkShape h.guard [] [] false true with blocks := true }
  | .wakej h _ => mkShape h.guard [] [] false true
  | .strand _ _ => mkShape hdrC.guard [] [] true false
  | .shfl h _ w d a b => mkShape h.guard [(a, (widthTy w).regs), (b, 1)] (d.regs (widthTy w).regs) false false
  | .lpush h d a b _ => mkShape h.guard [(a, 1), (b, 1)] (d.regs 1) false false
  | .lpushWarp h d a b slot => mkShape h.guard [(a, 1), (b, 1), (slot, 1)] (d.regs 1) false true
  | .voteAny h _ _ _ => mkShape h.guard [] [] false false
  | .voteAll h _ _ _ => mkShape h.guard [] [] false false
  | .voteBallot h d _ _ => mkShape h.guard [] (d.regs 1) false false
  | .voteEq h _ a => mkShape h.guard [(a, 1)] [] false false
  | .redx h _ w d a => mkShape h.guard [(a, (widthTy w).regs)] (d.regs (widthTy w).regs) false false
  | .scanx h _ _ w d a => mkShape h.guard [(a, (widthTy w).regs)] (d.regs (widthTy w).regs) false false
  | .matchx h w d a => mkShape h.guard [(a, (widthTy w).regs)] (d.regs 1) false false
  | .ld h sz _ d r b => mkShape h.guard [(.uniform (r.setWidth 6 * 4), 4), (b, 1)] (d.regs (ldRegs sz)) false false
  | .st h sz _ r b c => mkShape h.guard [(.uniform (r.setWidth 6 * 4), 4), (b, 1), (c, (stTy sz).regs)] [] false false
  | .lds h sz _ d a b => mkShape h.guard [(a, 1), (b, 1)] (d.regs (ldRegs sz)) false false
  | .sts h sz _ a b c => mkShape h.guard [(a, 1), (b, 1), (c, (stTy sz).regs)] [] false false
  | .ldx h sz _ _ d a b => mkShape h.guard [(a, 1), (b, 1)] (d.regs (ldRegs sz)) false false
  | .stx h sz _ _ a b c => mkShape h.guard [(a, 1), (b, 1), (c, (stTy sz).regs)] [] false false
  | .ldw h w _ d r b => mkShape h.guard [(.uniform (r.setWidth 6 * 4), 4), (b, 1)] (d.regs (atomRegs w)) false false
  | .atom g op w _ _ d r b c => mkShape g [(.uniform (r.setWidth 6 * 4), 4), (b, 1), (c, atomSrc op w)] (d.regs (atomRegs w)) false true
  | .atoms g op w _ _ d a b c => mkShape g [(a, 1), (b, 1), (c, atomSrc op w)] (d.regs (atomRegs w)) false true
  | .fence h _ _ => mkShape h.guard [] [] false false
  | .tagq h d a => mkShape h.guard [(a, 1)] (d.regs 1) false false
  | .tagi h a b c => mkShape h.guard [(a, 1), (b, 1), (c, 1)] [] false false
  | .tagx h a => mkShape h.guard [(a, 1)] [] false false
  | .cpy h _ _ _ clo a b r => mkShape h.guard ([(a, 1), (b, 1), (regOpd r, 1)] ++ (clo.map (fun o => (o, 1))).toList) [] false true
  | .gath h _ clo a b v => mkShape h.guard ([(a, 1), (b, 1), (v, 1)] ++ (clo.map (fun o => (o, 1))).toList) [] false true
  | .coll h _ clo a b => mkShape h.guard ([(a, 1), (b, 1)] ++ (clo.map (fun o => (o, 1))).toList) [] false true
  | .binit h _ a b c => mkShape h.guard [(a, 1), (b, 1), (c, 1)] [] false true
  | .bexp h _ a b c => mkShape h.guard [(a, 1), (b, 1), (c, 1)] [] false true
  | .barv h _ a b => mkShape h.guard [(a, 1), (b, 1)] [] false true
  | .bwait h _ a b par => { mkShape h.guard [(a, 1), (b, 1), (par, 1)] [] false true with blocks := true }
  | .btest h _ _ a b par => mkShape h.guard [(a, 1), (b, 1), (par, 1)] [] false false
  | .trig h => mkShape h.guard [] [] false true
  | .mma h _ _ _ _ _ a b => mkShape h.guard [(a, 1), (b, 1)] [] false false
  | .mmag h _ _ _ _ _ a b v => mkShape h.guard [(a, 1), (b, 1), (v, 1)] [] false false
  | .acz h => mkShape h.guard [] [] false false
  | .acld h rns _ a => mkShape h.guard ((a, 1) :: (rns.map (fun b => (b, 1))).toList) [] false false
  | .acst h _ _ _ a => mkShape h.guard [(a, 1)] [] false false
  | .had h _ a b => mkShape h.guard [(a, 1), (b, 1)] [] false false
  | .qnt h _ _ _ a => mkShape h.guard [(a, 1)] [] false false
  | .snorm h _ v m => mkShape h.guard [(v, 1), (m, 1)] [] false false
  | .salias g _ va vb => mkShape g [(va, 1), (vb, 1)] [] false false
  | .spot g _ _ _ _ _ a b c => mkShape g ([(a, 1), (b, 1)] ++ [(spotGroupOpd c, 4)]) [] false false
  | .sstat h d => mkShape h.guard [] [(statReg d, 4)] false false
  | .srr h _ d => mkShape h.guard [] (d.regs 2) false false
  | .srw h _ b => mkShape h.guard [(b, 2)] [] false true
  | .cede h => mkShape h.guard [] [] false true
  | .cedeHold h => mkShape h.guard [] [] false true
  | .cedeOpen h => mkShape h.guard [] [] false true
  | .saveHold h a b => mkShape h.guard [(a, 1), (b, 1)] [] false true
  | .saveScr h a b => mkShape h.guard [(a, 1), (b, 1)] [] false true
  | .saveAcc h => mkShape h.guard [] [] false true
  | .saveTag h => mkShape h.guard [] [] false true
  | .trapretRestart h => mkShape h.guard [] [] false false
  | .trapretSkip h => mkShape h.guard [] [] false false
  | .watchOff h c => mkShape h.guard [(c, 1)] [] false false
  | .watchW h a b c => mkShape h.guard [(a, 2), (b, 1), (c, 1)] [] false false
  | .watchRw h a b c => mkShape h.guard [(a, 2), (b, 1), (c, 1)] [] false false
  | .profStall h a b c => mkShape h.guard [(a, 2), (b, 1), (c, 1)] [] false false
  | .profStop h => mkShape h.guard [] [] false false
  | .profMem h a b c => mkShape h.guard [(a, 2), (b, 1), (c, 1)] [] false false
  | .nop h => mkShape h.guard [] [] false false
  | .thset h d a b => mkShape h.guard [(a, 1), (b, 1)] (d.regs 1) false true
  | .thdrop h a => mkShape h.guard [(a, 1)] [] false true
  | .addC d a b => mkShape hdrC.guard [(a.expand, 1), (b.expand, 1)] (d.expand.regs 1) false false
  | .subC d a b => mkShape hdrC.guard [(a.expand, 1), (b.expand, 1)] (d.expand.regs 1) false false
  | .mulC d a b => mkShape hdrC.guard [(a.expand, 1), (b.expand, 1)] (d.expand.regs 1) false false
  | .mulhC d a b => mkShape hdrC.guard [(a.expand, 1), (b.expand, 1)] (d.expand.regs 1) false false
  | .mulhnC d a b => mkShape hdrC.guard [(a.expand, 1), (b.expand, 1)] (d.expand.regs 1) false false
  | .minC d a b => mkShape hdrC.guard [(a.expand, 1), (b.expand, 1)] (d.expand.regs 1) false false
  | .maxC d a b => mkShape hdrC.guard [(a.expand, 1), (b.expand, 1)] (d.expand.regs 1) false false
  | .minnC d a b => mkShape hdrC.guard [(a.expand, 1), (b.expand, 1)] (d.expand.regs 1) false false
  | .maxnC d a b => mkShape hdrC.guard [(a.expand, 1), (b.expand, 1)] (d.expand.regs 1) false false
  | .andC d a b => mkShape hdrC.guard [(a.expand, 1), (b.expand, 1)] (d.expand.regs 1) false false
  | .orC d a b => mkShape hdrC.guard [(a.expand, 1), (b.expand, 1)] (d.expand.regs 1) false false
  | .xorC d a b => mkShape hdrC.guard [(a.expand, 1), (b.expand, 1)] (d.expand.regs 1) false false
  | .andnC d a b => mkShape hdrC.guard [(a.expand, 1), (b.expand, 1)] (d.expand.regs 1) false false
  | .shlC d a b => mkShape hdrC.guard [(a.expand, 1), (b.expand, 1)] (d.expand.regs 1) false false
  | .shrC d a b => mkShape hdrC.guard [(a.expand, 1), (b.expand, 1)] (d.expand.regs 1) false false
  | .sarC d a b => mkShape hdrC.guard [(a.expand, 1), (b.expand, 1)] (d.expand.regs 1) false false
  | .rolC d a b => mkShape hdrC.guard [(a.expand, 1), (b.expand, 1)] (d.expand.regs 1) false false
  | .rorC d a b => mkShape hdrC.guard [(a.expand, 1), (b.expand, 1)] (d.expand.regs 1) false false
  | .add64C d a b => mkShape hdrC.guard [(a.expand, 2), (b.expand, 2)] (d.expand.regs 2) false false
  | .sub64C d a b => mkShape hdrC.guard [(a.expand, 2), (b.expand, 2)] (d.expand.regs 2) false false
  | .movC d a => mkShape hdrC.guard [(a.expand, 1)] (d.expand.regs 1) false false
  | .mov64C d a => mkShape hdrC.guard [(a.expand, 2)] (d.expand.regs 2) false false
  | .negC d a => mkShape hdrC.guard [(a.expand, 1)] (d.expand.regs 1) false false
  | .notC d a => mkShape hdrC.guard [(a.expand, 1)] (d.expand.regs 1) false false
  | .popcC d a => mkShape hdrC.guard [(a.expand, 1)] (d.expand.regs 1) false false
  | .clzC d a => mkShape hdrC.guard [(a.expand, 1)] (d.expand.regs 1) false false
  | .ctzC d a => mkShape hdrC.guard [(a.expand, 1)] (d.expand.regs 1) false false
  | .sext8C d a => mkShape hdrC.guard [(a.expand, 1)] (d.expand.regs 1) false false
  | .sext16C d a => mkShape hdrC.guard [(a.expand, 1)] (d.expand.regs 1) false false
  | .zext8C d a => mkShape hdrC.guard [(a.expand, 1)] (d.expand.regs 1) false false
  | .zext16C d a => mkShape hdrC.guard [(a.expand, 1)] (d.expand.regs 1) false false
  | .faddC d a b => mkShape hdrC.guard [(a.expand, 1), (b.expand, 1)] (d.expand.regs 1) false false
  | .fsubC d a b => mkShape hdrC.guard [(a.expand, 1), (b.expand, 1)] (d.expand.regs 1) false false
  | .fmulC d a b => mkShape hdrC.guard [(a.expand, 1), (b.expand, 1)] (d.expand.regs 1) false false
  | .fminC d a b => mkShape hdrC.guard [(a.expand, 1), (b.expand, 1)] (d.expand.regs 1) false false
  | .fmaxC d a b => mkShape hdrC.guard [(a.expand, 1), (b.expand, 1)] (d.expand.regs 1) false false
  | .fminpC d a b => mkShape hdrC.guard [(a.expand, 1), (b.expand, 1)] (d.expand.regs 1) false false
  | .fmaxpC d a b => mkShape hdrC.guard [(a.expand, 1), (b.expand, 1)] (d.expand.regs 1) false false
  | .fscaleC d a b => mkShape hdrC.guard [(a.expand, 1), (b.expand, 1)] (d.expand.regs 1) false false
  | .hadd2F16C d a b => mkShape hdrC.guard [(a.expand, 1), (b.expand, 1)] (d.expand.regs 1) false false
  | .hsub2F16C d a b => mkShape hdrC.guard [(a.expand, 1), (b.expand, 1)] (d.expand.regs 1) false false
  | .hmul2F16C d a b => mkShape hdrC.guard [(a.expand, 1), (b.expand, 1)] (d.expand.regs 1) false false
  | .hadd2Bf16C d a b => mkShape hdrC.guard [(a.expand, 1), (b.expand, 1)] (d.expand.regs 1) false false
  | .hsub2Bf16C d a b => mkShape hdrC.guard [(a.expand, 1), (b.expand, 1)] (d.expand.regs 1) false false
  | .hmul2Bf16C d a b => mkShape hdrC.guard [(a.expand, 1), (b.expand, 1)] (d.expand.regs 1) false false
  | .fabsC d a => mkShape hdrC.guard [(a.expand, 1)] (d.expand.regs 1) false false
  | .fnegC d a => mkShape hdrC.guard [(a.expand, 1)] (d.expand.regs 1) false false
  | .rcpC d a => mkShape hdrC.guard [(a.expand, 1)] (d.expand.regs 1) false false
  | .rsqC d a => mkShape hdrC.guard [(a.expand, 1)] (d.expand.regs 1) false false
  | .sqrtC d a => mkShape hdrC.guard [(a.expand, 1)] (d.expand.regs 1) false false
  | .exp2C d a => mkShape hdrC.guard [(a.expand, 1)] (d.expand.regs 1) false false
  | .log2C d a => mkShape hdrC.guard [(a.expand, 1)] (d.expand.regs 1) false false
  | .tanhC d a => mkShape hdrC.guard [(a.expand, 1)] (d.expand.regs 1) false false
  | .sigmC d a => mkShape hdrC.guard [(a.expand, 1)] (d.expand.regs 1) false false
  | .divfC d a b => mkShape hdrC.guard [(a.expand, 1), (b.expand, 1)] (d.expand.regs 1) false false
  | .cvtF32I32C d a => mkShape hdrC.guard [(a.expand, 1)] (d.expand.regs 1) false false
  | .cvtI32F32C d a => mkShape hdrC.guard [(a.expand, 1)] (d.expand.regs 1) false false
  | .cvtF32F16C d a => mkShape hdrC.guard [(a.expand, 1)] (d.expand.regs 1) false false
  | .cvtF16F32C d a => mkShape hdrC.guard [(a.expand, 1)] (d.expand.regs 1) false false
  | .shflIdxC d a b => mkShape hdrC.guard [(a.expand, 1), (b.expand, 1)] (d.expand.regs 1) false false
  | .shflXorC d a b => mkShape hdrC.guard [(a.expand, 1), (b.expand, 1)] (d.expand.regs 1) false false
  | .braC _ => mkShape hdrC.guard [] [] false false
  | .exitC => mkShape hdrC.guard [] [] false false
  | .fetchReturn _ => Shape.plain hdrC.guard
  | .sfuResult _ => Shape.plain hdrC.guard
  | .loadResult _ => Shape.plain hdrC.guard
  | .atomicResult _ => Shape.plain hdrC.guard
  | .tagqResult _ => Shape.plain hdrC.guard
  | .matrixUnitDone _ => Shape.plain hdrC.guard
  | .thsetComplete _ => Shape.plain hdrC.guard
  | .translationWalkDone _ _ _ => Shape.plain hdrC.guard
  | .emulationDone _ => Shape.plain hdrC.guard
  | .runAheadIssue _ => Shape.plain hdrC.guard
  | .windowFill _ => Shape.plain hdrC.guard
  | .windowExchange _ => Shape.plain hdrC.guard
  | .windowExchangeDone _ => Shape.plain hdrC.guard
  | .pageService _ _ _ _ => Shape.plain hdrC.guard
  | .engineJobStart _ _ => Shape.plain hdrC.guard
  | .engineJobAccess _ _ _ => Shape.plain hdrC.guard
  | .engineJobComplete _ _ => Shape.plain hdrC.guard
  | .launchRecord _ _ => Shape.plain hdrC.guard
  | .kick _ _ _ => Shape.plain hdrC.guard
  | .launchFrame _ _ _ => Shape.plain hdrC.guard
  | .dispatchParcel _ => Shape.plain hdrC.guard
  | .stagingDone _ _ _ => Shape.plain hdrC.guard
  | .parcelDone _ _ _ => Shape.plain hdrC.guard
  | .overrun _ _ _ => Shape.plain hdrC.guard
  | .hang _ _ _ => Shape.plain hdrC.guard
  | .sliceEnd _ => Shape.plain hdrC.guard
  | .sliceStart _ => Shape.plain hdrC.guard
  | .preemptHandlerEntry _ => Shape.plain hdrC.guard
  | .forcedSave _ => Shape.plain hdrC.guard
  | .resurveyStart _ => Shape.plain hdrC.guard
  | .resurveyScanEnd _ _ => Shape.plain hdrC.guard
  | .stallSample _ => Shape.plain hdrC.guard
  | .invalidatePage _ _ _ => Shape.plain hdrC.guard
  | .invalidationComplete _ _ => Shape.plain hdrC.guard
  | .migrationCopyDone _ _ _ _ => Shape.plain hdrC.guard
  | .frameFree _ _ _ => Shape.plain hdrC.guard
  | .scrubDone _ _ => Shape.plain hdrC.guard
  | .unitFailing _ _ => Shape.plain hdrC.guard
  | .evacuationDone _ => Shape.plain hdrC.guard
  | .swathStart _ => Shape.plain hdrC.guard
  | .swathComplete _ _ => Shape.plain hdrC.guard
  | .parityWalk _ => Shape.plain hdrC.guard
  | .partitionWrite _ _ _ => Shape.plain hdrC.guard
  | .contractWrite _ => Shape.plain hdrC.guard
  | .registerWrite _ _ _ => Shape.plain hdrC.guard
  | .haltGroup _ _ _ => Shape.plain hdrC.guard
  | .edit _ _ => Shape.plain hdrC.guard
  | .releaseGroup _ _ _ => Shape.plain hdrC.guard
  | .releaseThread _ _ => Shape.plain hdrC.guard
  | .precopyRound _ _ => Shape.plain hdrC.guard
  | .migrationStop _ => Shape.plain hdrC.guard
  | .migrationResume _ _ _ _ => Shape.plain hdrC.guard
  | .flitReceived _ _ _ => Shape.plain hdrC.guard
  | .portFailure _ => Shape.plain hdrC.guard
  | .remoteRequest _ _ _ _ _ _ => Shape.plain hdrC.guard
  | .collContribution _ _ _ _ => Shape.plain hdrC.guard
  | .hostWrite _ _ _ => Shape.plain hdrC.guard
  | .hostRead _ _ _ _ => Shape.plain hdrC.guard
  | .nvmeTransfer _ _ _ _ _ _ => Shape.plain hdrC.guard
  | .setPwrlim _ => Shape.plain hdrC.guard
  | .ownershipTransfer _ => Shape.plain hdrC.guard
  | .ownerInstall _ _ => Shape.plain hdrC.guard
  | .getVersion => Shape.plain hdrC.guard
  | .getCapabilities => Shape.plain hdrC.guard
  | .negotiateAlgorithms _ _ => Shape.plain hdrC.guard
  | .getDigests => Shape.plain hdrC.guard
  | .getCertificate _ => Shape.plain hdrC.guard
  | .challenge _ => Shape.plain hdrC.guard
  | .getMeasurements _ => Shape.plain hdrC.guard
  | .powerOnReset _ => Shape.plain hdrC.guard
  | .coolantFault _ _ => Shape.plain hdrC.guard
  | .junctionOvertemp _ => Shape.plain hdrC.guard
  | .powerThrottle _ _ => Shape.plain hdrC.guard
  | .debuggerAttach _ => Shape.plain hdrC.guard
  | .closureOperationPerformed _ => Shape.plain hdrC.guard
  | .storePerformed _ => Shape.plain hdrC.guard
  | .thdropAnswer _ => Shape.plain hdrC.guard
  | .watchSlotInstalled _ => Shape.plain hdrC.guard

/-- Predicates that an instruction reads besides its guard. -/
def Instr.preds : Instr → List (BitVec 3)
  | .sel _ _ _ _ _ p => [p]
  | .cmp _ _ _ _ cb _ _ | .fcmp _ _ _ _ cb _ _ =>
    match cb with
    | .none => []
    | .and _ q | .or _ q | .xor _ q => [q]
  | .voteAny _ _ _ q | .voteAll _ _ _ q | .voteBallot _ _ _ q => [q]
  | _ => []

/-- The predicate that an instruction writes. -/
def Instr.predDst : Instr → Option (BitVec 3)
  | .cmp _ _ _ pd _ _ _ | .fcmp _ _ _ pd _ _ _ => some pd
  | .voteAny _ pd _ _ | .voteAll _ pd _ _ | .voteEq _ pd _ => some pd
  | .elect _ p => some p
  | .btest _ _ pd _ _ _ => some pd
  | .lpush _ _ _ _ pc => pc
  | _ => none

/-- Special-function instructions (R97). -/
def Instr.isSfu : Instr → Bool
  | .rcp .. | .rsq .. | .sqrt .. | .exp2 .. | .log2 .. | .sinpi .. | .cospi .. | .tanh .. | .sigm .. | .divf .. | .rcpC ..
  | .rsqC .. | .sqrtC .. | .exp2C .. | .log2C .. | .tanhC .. | .sigmC .. | .divfC .. => true
  | _ => false

/-- Instructions of major opcodes 0x30 to 0x32, which act for the whole warp (R213). -/
def Instr.isWide : Instr → Bool
  | .mma .. | .mmag .. | .acz .. | .acld .. | .acst .. | .had .. | .qnt .. | .snorm .. | .salias .. | .spot .. | .sstat .. =>
    true
  | _ => false

/-- Warp-wide instructions that take the quadrant's matrix unit (R255); `SSTAT` waits on its own terms (R282). -/
def Instr.takesUnit : Instr → Bool
  | .sstat .. => false
  | i => i.isWide

/-- The handle operands that an instruction names, with its literal word. -/
def Instr.handles : Instr → Option (Word × List Opd)
  | .mma h _ _ _ _ _ a b => some (h.lit, [a, b])
  | .mmag h _ _ _ _ _ a b v => some (h.lit, [a, b, v])
  | .acld h _ _ a => some (h.lit, [a])
  | .acst h _ _ _ a => some (h.lit, [a])
  | .had h _ a _ => some (h.lit, [a])
  | .qnt h _ _ _ a => some (h.lit, [a])
  | .snorm h _ v m => some (h.lit, [v, m])
  | .salias _ _ a b => some (0, [a, b])
  | .spot _ _ _ _ _ _ a b _ => some (0, [a, b])
  | .cpy h _ _ _ _ _ b _ => some (h.lit, [b])
  | .gath h _ _ _ b v => some (h.lit, [b, v])
  | .coll h _ _ _ b => some (h.lit, [b])
  | .thdrop h a => some (h.lit, [a])
  | _ => none

/-- The instructions that read or write the tag table. -/
def Instr.usesTags : Instr → Bool
  | .tagq .. | .tagi .. | .tagx .. | .saveTag .. => true
  | _ => false

/-- Branches (R122). -/
def Instr.isBranch : Instr → Bool
  | .bra .. | .brx .. | .braC .. => true
  | _ => false

/-- A `STRAND` header. -/
def Instr.isHeader : Instr → Bool
  | .strand .. => true
  | _ => false

/-- Instructions that read and write registers, predicates and masks of their warp only, with their meanings. -/
def Instr.regOnly : Instr → Option (State → Machine.Res)
  | .add h w d a b => some (execAdd h w d a b)
  | .sub h w d a b => some (execSub h w d a b)
  | .mul h w d a b => some (execMul h w d a b)
  | .mulh h w d a b => some (execMulh h w d a b)
  | .mulhn h w d a b => some (execMulhn h w d a b)
  | .div h w d a b => some (execDiv h w d a b)
  | .divn h w d a b => some (execDivn h w d a b)
  | .rem h w d a b => some (execRem h w d a b)
  | .remn h w d a b => some (execRemn h w d a b)
  | .minS h w d a b => some (execMinS h w d a b)
  | .maxS h w d a b => some (execMaxS h w d a b)
  | .minn h w d a b => some (execMinn h w d a b)
  | .maxn h w d a b => some (execMaxn h w d a b)
  | .andB h w d a b => some (execAndB h w d a b)
  | .orB h w d a b => some (execOrB h w d a b)
  | .xorB h w d a b => some (execXorB h w d a b)
  | .andn h w d a b => some (execAndn h w d a b)
  | .orn h w d a b => some (execOrn h w d a b)
  | .shl h w d a b => some (execShl h w d a b)
  | .shr h w d a b => some (execShr h w d a b)
  | .sar h w d a b => some (execSar h w d a b)
  | .rol h w d a b => some (execRol h w d a b)
  | .ror h w d a b => some (execRor h w d a b)
  | .mad h w d a b c => some (execMad h w d a b c)
  | .madh h w d a b c => some (execMadh h w d a b c)
  | .lea h w d a b c => some (execLea h w d a b c)
  | .bfx h w d a b => some (execBfx h w d a b)
  | .bfi h w d a b c => some (execBfi h w d a b c)
  | .sel h w d a b p => some (execSel h w d a b p)
  | .add3 h w d a b c => some (execAdd3 h w d a b c)
  | .mov h w d a => some (execMov h w d a)
  | .neg h w d a => some (execNeg h w d a)
  | .abs h w d a => some (execAbs h w d a)
  | .notB h w d a => some (execNotB h w d a)
  | .popc h w d a => some (execPopc h w d a)
  | .clz h w d a => some (execClz h w d a)
  | .ctz h w d a => some (execCtz h w d a)
  | .brev h w d a => some (execBrev h w d a)
  | .sext8 h w d a => some (execSext8 h w d a)
  | .sext16 h w d a => some (execSext16 h w d a)
  | .zext8 h w d a => some (execZext8 h w d a)
  | .zext16 h w d a => some (execZext16 h w d a)
  | .cmp h cond w pd cb a b => some (execCmp h cond w pd cb a b)
  | .fadd h rm d a b => some (execFadd h rm d a b)
  | .fsub h rm d a b => some (execFsub h rm d a b)
  | .fmul h rm d a b => some (execFmul h rm d a b)
  | .fmin h d a b => some (execFmin h d a b)
  | .fmax h d a b => some (execFmax h d a b)
  | .fminp h d a b => some (execFminp h d a b)
  | .fmaxp h d a b => some (execFmaxp h d a b)
  | .fscale h rm d a b => some (execFscale h rm d a b)
  | .hadd2 h hf rm d a b => some (execHadd2 h hf rm d a b)
  | .hsub2 h hf rm d a b => some (execHsub2 h hf rm d a b)
  | .hmul2 h hf rm d a b => some (execHmul2 h hf rm d a b)
  | .hmin2 h hf d a b => some (execHmin2 h hf d a b)
  | .hmax2 h hf d a b => some (execHmax2 h hf d a b)
  | .ffma h rm d a b c => some (execFfma h rm d a b c)
  | .ffms h rm d a b c => some (execFfms h rm d a b c)
  | .fnma h rm d a b c => some (execFnma h rm d a b c)
  | .hfma2 h hf rm d a b c => some (execHfma2 h hf rm d a b c)
  | .fabs h d a => some (execFabs h d a)
  | .fneg h d a => some (execFneg h d a)
  | .frnd h rm d a => some (execFrnd h rm d a)
  | .fclass h d a => some (execFclass h d a)
  | .fsat h d a => some (execFsat h d a)
  | .fcmp h cond f pd cb a b => some (execFcmp h cond f pd cb a b)
  | .cvt h p rm d a => some (execCvt h p rm d a)
  | .rcp h d a => some (execRcp h d a)
  | .rsq h d a => some (execRsq h d a)
  | .sqrt h d a => some (execSqrt h d a)
  | .exp2 h d a => some (execExp2 h d a)
  | .log2 h d a => some (execLog2 h d a)
  | .sinpi h d a => some (execSinpi h d a)
  | .cospi h d a => some (execCospi h d a)
  | .tanh h d a => some (execTanh h d a)
  | .sigm h d a => some (execSigm h d a)
  | .divf h d a b => some (execDivf h d a b)
  | .bra h off => some (execBra h off)
  | .brx h a => some (execBrx h a)
  | .jset h j => some (execJset h j)
  | .jadd h j => some (execJadd h j)
  | .jclr h j => some (execJclr h j)
  | .elect h p => some (execElect h p)
  | .shfl h mode w d a b => some (execShfl h mode w d a b)
  | .lpush h d a b pc => some (execLpush h d a b pc)
  | .voteAny h pd inv q => some (execVoteAny h pd inv q)
  | .voteAll h pd inv q => some (execVoteAll h pd inv q)
  | .voteBallot h d inv q => some (execVoteBallot h d inv q)
  | .voteEq h pd a => some (execVoteEq h pd a)
  | .redx h op w d a => some (execRedx h op w d a)
  | .scanx h ex op w d a => some (execScanx h ex op w d a)
  | .matchx h w d a => some (execMatchx h w d a)
  | .srr h r d => some (execSrr h r d)
  | .trapretRestart h => some (execTrapretRestart h)
  | .trapretSkip h => some (execTrapretSkip h)
  | .nop h => some (execNop h)
  | .addC d a b => some (execAddC d a b)
  | .subC d a b => some (execSubC d a b)
  | .mulC d a b => some (execMulC d a b)
  | .mulhC d a b => some (execMulhC d a b)
  | .mulhnC d a b => some (execMulhnC d a b)
  | .minC d a b => some (execMinC d a b)
  | .maxC d a b => some (execMaxC d a b)
  | .minnC d a b => some (execMinnC d a b)
  | .maxnC d a b => some (execMaxnC d a b)
  | .andC d a b => some (execAndC d a b)
  | .orC d a b => some (execOrC d a b)
  | .xorC d a b => some (execXorC d a b)
  | .andnC d a b => some (execAndnC d a b)
  | .shlC d a b => some (execShlC d a b)
  | .shrC d a b => some (execShrC d a b)
  | .sarC d a b => some (execSarC d a b)
  | .rolC d a b => some (execRolC d a b)
  | .rorC d a b => some (execRorC d a b)
  | .add64C d a b => some (execAdd64C d a b)
  | .sub64C d a b => some (execSub64C d a b)
  | .movC d a => some (execMovC d a)
  | .mov64C d a => some (execMov64C d a)
  | .negC d a => some (execNegC d a)
  | .notC d a => some (execNotC d a)
  | .popcC d a => some (execPopcC d a)
  | .clzC d a => some (execClzC d a)
  | .ctzC d a => some (execCtzC d a)
  | .sext8C d a => some (execSext8C d a)
  | .sext16C d a => some (execSext16C d a)
  | .zext8C d a => some (execZext8C d a)
  | .zext16C d a => some (execZext16C d a)
  | .faddC d a b => some (execFaddC d a b)
  | .fsubC d a b => some (execFsubC d a b)
  | .fmulC d a b => some (execFmulC d a b)
  | .fminC d a b => some (execFminC d a b)
  | .fmaxC d a b => some (execFmaxC d a b)
  | .fminpC d a b => some (execFminpC d a b)
  | .fmaxpC d a b => some (execFmaxpC d a b)
  | .fscaleC d a b => some (execFscaleC d a b)
  | .hadd2F16C d a b => some (execHadd2F16C d a b)
  | .hsub2F16C d a b => some (execHsub2F16C d a b)
  | .hmul2F16C d a b => some (execHmul2F16C d a b)
  | .hadd2Bf16C d a b => some (execHadd2Bf16C d a b)
  | .hsub2Bf16C d a b => some (execHsub2Bf16C d a b)
  | .hmul2Bf16C d a b => some (execHmul2Bf16C d a b)
  | .fabsC d a => some (execFabsC d a)
  | .fnegC d a => some (execFnegC d a)
  | .rcpC d a => some (execRcpC d a)
  | .rsqC d a => some (execRsqC d a)
  | .sqrtC d a => some (execSqrtC d a)
  | .exp2C d a => some (execExp2C d a)
  | .log2C d a => some (execLog2C d a)
  | .tanhC d a => some (execTanhC d a)
  | .sigmC d a => some (execSigmC d a)
  | .divfC d a b => some (execDivfC d a b)
  | .cvtF32I32C d a => some (execCvtF32I32C d a)
  | .cvtI32F32C d a => some (execCvtI32F32C d a)
  | .cvtF32F16C d a => some (execCvtF32F16C d a)
  | .cvtF16F32C d a => some (execCvtF16F32C d a)
  | .shflIdxC d a b => some (execShflIdxC d a b)
  | .shflXorC d a b => some (execShflXorC d a b)
  | .braC off => some (execBraC off)
  | _ => none

/-- Cross-lane instructions, whose uniform destination takes the value of the lowest guard-true lane (R147). -/
def Instr.crosses : Instr → Bool
  | .shfl .. | .shflIdxC .. | .shflXorC .. | .voteBallot .. | .redx .. | .scanx .. | .matchx .. => true
  | _ => false

/-- Fixed-latency, result-producing instructions, which shift the latches (R13, R30). -/
def Instr.shifts (i : Instr) : Bool :=
  match i with
  | .lpush .. | .bra .. | .brx .. | .braC .. | .jset .. | .jadd .. | .jclr .. | .trapretRestart .. | .trapretSkip .. | .nop .. =>
    false
  | _ => i.regOnly.isSome && !i.isSfu && i.predDst.isNone

end Sys2Proof
end

