-- ==== Sys2Proof/Machine/Fetch.lean ====
section
/-! DEFINITION. Fetching an instruction (spec/02 R31; spec/03 R47 to R49, R59; spec/07 R177): a core's instruction cache,
the words at a PC, and the events `FETCH_RETURN` and `TRANSLATION_WALK_DONE`. -/

namespace Sys2Proof.Machine

/-- Key of a cached line: virtual device and 57-bit line address (R177). -/
def lineKey (vdev : Nat) (pc : Dword) : Nat := vdev * 2 ^ 50 + field pc 56 7

/-- The 32 words of a line as memory holds them at a key. -/
def State.lineAt (s : State) (k : Nat) : List Word := (List.range 32).map (fun i => BitVec.ofNat 32 (s.rd (k + 4 * i) 4))

/-- The memory key behind an address as a die translates it, with no effect. -/
def State.peek (s : State) (die vdev : Nat) (va : Dword) : Option Nat :=
  match (s.translate die vdev va false true).2 with
  | .ok k _ => some k
  | _ => none

/-- Word of changed code: its old or its new value (R49); k numbers the words of the fetch. -/
def State.codeWord (s : State) (core vdev : Nat) (pc : Dword) (k : Nat) (old : Word) : Word :=
  match s.peek (dieOfCore core) vdev pc with
  | none => old
  | some a =>
    let new := BitVec.ofNat 32 (s.rd a 4)
    if new = old then old else if Config.codeWordIsNew (4 * s.tick + k) then new else old

/-- The word at an address, when its line is in the core's instruction cache. -/
def State.fetchWord (s : State) (core vdev : Nat) (pc : Dword) (k : Nat) : Option Word :=
  match NMap.get [] (s.core core).icache (lineKey vdev pc) with
  | [] => none
  | ws => some (s.codeWord core vdev pc k (ws.getD (field pc 6 2) 0))

/-- What a fetch gives. -/
inductive Fetched where
  /-- The line at this address is missing. -/
  | miss (va : Dword) (words : Nat)
  /-- The instruction's words. -/
  | words (ws : List Word)
deriving DecidableEq, Repr

/-- Length in words as the first word gives it; 1 when it names none (R47, R222). -/
def wordsIn (w0 : Word) : Nat :=
  match (w0.extractLsb' 0 2).toNat with
  | 2 => 2
  | 3 => 3
  | _ => 1

/-- The words of the instruction at a PC (R47, R48). -/
def State.fetch (s : State) (core vdev : Nat) (pc : Dword) : Fetched :=
  match s.fetchWord core vdev pc 0 with
  | none => .miss pc 1
  | some w0 =>
    let n := wordsIn w0
    if n = 1 then .words [w0]
    else
      match s.fetchWord core vdev (canon (pc + 4)) 1 with
      | none => .miss (canon (pc + 4)) n
      | some w1 =>
        if n = 2 then .words [w0, w1]
        else
          match s.fetchWord core vdev (canon (pc + 8)) 2 with
          | none => .miss (canon (pc + 8)) n
          | some w2 => .words [w0, w1, w2]

/-- The cause of a trap at decoding (R58, R59). -/
def trapCause : Bad → Byte
  | .illegalLength => 0x01
  | .illegalOpcode => 0x02
  | .reservedField => 0x03
  | .illegalOperand => 0x04

/-- The set of a waiting fetch as an issue. -/
def fetchIssue (q slot : Nat) (m : Mask) (pc : Dword) (words clk : Nat) : Issue :=
  { quad := q, slot := slot, mask := m, pc := pc, words := words, clk := clk }

/-- Lines whose address has the same index: 64 sets of lines of 128 bytes (R177). -/
def sameIndex (a b : Nat) : Bool := a % 64 == b % 64

/-- The line that a fill puts out: the oldest of those that the bank set with first bank `base` has filled at the index, when
it has filled its `ways`, else the oldest at a full index (R177; which one goes is assumption 55). -/
def Core.victim (x : Core) (key base ways : Nat) : Option Nat :=
  let others := x.icOrder.filter (fun e => sameIndex e.1 key && e.1 != key)
  let own := others.filter (fun e => e.2 == base)
  if ways ≤ own.length then (own.head?).map (·.1)
  else if 8 ≤ others.length then (others.head?).map (·.1)
  else none

/-- A line comes into a core's cache. -/
def Core.fill (x : Core) (key base ways : Nat) (line : List Word) : Core :=
  let gone (k : Nat) : Bool := k == key || x.victim key base ways == some k
  { x with icache := NMap.set [] (x.icache.filter (fun e => !(gone e.1))) key line,
           icOrder := x.icOrder.filter (fun e => !(gone e.1)) ++ [(key, base)] }

/-- Fill a line of a core's cache from a memory key, for a quadrant: its bank set of 16 banks fills 2 of the 8 ways, one of 32
banks 4, the whole division all 8 (R177). -/
def State.fillLine (s : State) (quad vdev : Nat) (va : Dword) (k : Nat) : State :=
  let core := coreOfQuad quad
  let b := s.setOf core (quad % 4)
  s.setCore core ((s.core core).fill (lineKey vdev va) b.1 (b.2 / 8) (s.lineAt k))

/-- A fetch that failed stops the whole set before its instruction (R48, R59). -/
def State.fetchFault (s : State) (q slot : Nat) (m : Mask) (pc va : Dword) (words : Nat) (c : Byte) : State :=
  let s := s.setQuad q { s.quad q with fetch := none }
  let s := { s with iss := fetchIssue q slot m pc words (s.quad q).clock }
  s.take { Exc.of c m with pages := if c = cPageNotPresent ∨ c = cPageProtection then [pageOf va.toNat] else [] }

/-- `FETCH_RETURN`: the missing line comes in through translation, or the fetch faults; with the last line the set that
waits is the quadrant's next to issue (R31, R177). -/
def dueFetchReturn (q : Nat) (s : State) : Option State :=
  match (s.quad q).fetch with
  | none => none
  | some (slot, m, pc) =>
    let v := (s.warp (16 * q + slot)).vdev
    match s.fetch (coreOfQuad q) v pc with
    | .words _ => none
    | .miss va n =>
      let line := BitVec.ofNat 64 (va.toNat - va.toNat % 128)
      match s.translate (dieOfQuad q) v line false true with
      | (s, .fault c) => some (s.fetchFault q slot m pc va n c)
      | (s, .window _) => some (s.fetchFault q slot m pc va n cPageProtection)
      | (s, .ok k _) =>
        match s.meetRead k 128 with
        | .error c => some (s.fetchFault q slot m pc va n c)
        | .ok s => if (s.inMotion k).isSome then none else some (s.fillLine q v va k)

/-- `FETCH_RETURN`: as `dueFetchReturn` has it; while the event is not due it does not take place, and nothing changes (assumption 14). -/
def execFetchReturn (q : Nat) (s : State) : Res :=
  State.after s (dueFetchReturn q s)

/-- `TRANSLATION_WALK_DONE`: a die's walk for a page ends; a leaf enters its cache, a walk that fails leaves nothing there
and the access that asked for it reports the cause (R385, R386). -/
def dueTranslationWalkDone (die vdev : Nat) (va : Dword) (s : State) : Option State :=
  match s.tlb? die vdev va with
  | some _ => none
  | none => some (s.leaf die vdev va).1

/-- `TRANSLATION_WALK_DONE`: as `dueTranslationWalkDone` has it; while the event is not due it does not take place, and nothing changes (assumption 14). -/
def execTranslationWalkDone (die vdev : Nat) (va : Dword) (s : State) : Res :=
  State.after s (dueTranslationWalkDone die vdev va s)

end Sys2Proof.Machine
end

