-- ==== Sys2Proof/Machine/RunAhead.lean ====
section
/-! DEFINITION. Run-ahead after a page fault (spec/09 R216 to R219): one shadow instruction of a run-ahead set, the poison
that load results spread, the pages that join the batch, and what ends it; the event `RUN_AHEAD_ISSUE`. -/

namespace Sys2Proof.Machine

/-! ### Poison

Keys: (0, hold), (1, near), (2, latch), (3, uniform), (4, `32 * predicate + lane`), as in `Warp`. -/

/-- A source of `n` registers is poisoned in a lane. -/
def poisonedOpd (ps : List (Nat × Nat)) (l n : Nat) : Opd → Bool
  | .hold r => (List.range n).any (fun k => ps.contains (0, 256 * l + (r.toNat + k)))
  | .near r => (List.range n).any (fun k => ps.contains (1, 16 * l + (r.toNat + k)))
  | .latch k => ps.contains (2, 4 * l + k.toNat)
  | .uniform r => (List.range n).any (fun k => ps.contains (3, r.toNat + k))
  | _ => false

def poisonedPred (ps : List (Nat × Nat)) (l p : Nat) : Bool := ps.contains (4, 32 * p + l)

/-- A lane's guard is poisoned. -/
def poisonedGuard (ps : List (Nat × Nat)) (sh : Shape) (l : Nat) : Bool := poisonedPred ps l sh.guard.idx.toNat

/-- Something that a lane's result is computed from is poisoned. -/
def poisonedLane (ps : List (Nat × Nat)) (i : Instr) (l : Nat) : Bool :=
  poisonedGuard ps i.shape l || i.shape.srcs.any (fun x => poisonedOpd ps l x.2 x.1) ||
    i.preds.any (fun p => poisonedPred ps l p.toNat)

/-- Other lanes whose sources a lane's result reads (R146 to R156). -/
def depLanes (i : Instr) (w : Warp) (iss : Issue) (g : Mask) (l : Nat) : List Nat :=
  let shfl (mode : ShflMode) (lit : Word) (b : Opd) : List Nat :=
    match shflLane mode l (lo32 (b.val w iss lit l .i32)).toNat with
    | some k => if hasLane g k then [k] else []
    | none => []
  match i with
  | .shfl h mode _ _ _ b => shfl mode h.lit b
  | .shflIdxC _ _ b => shfl .idx 0 b.expand
  | .shflXorC _ _ b => shfl .xor 0 b.expand
  | .voteAny .. | .voteAll .. | .voteBallot .. | .voteEq .. | .redx .. | .matchx .. | .elect .. => laneList g
  | .scanx .. => (laneList g).filter (fun k => decide (k ≤ l))
  | _ => []

def setPoison (ps : List (Nat × Nat)) (k : Nat × Nat) (v : Bool) : List (Nat × Nat) :=
  if v then (if ps.contains k then ps else ps ++ [k]) else ps.filter (fun x => !(x == k))

/-- Poison of a destination's `n` registers in a lane. -/
def poisonDst (ps : List (Nat × Nat)) (r : DReg) (n l : Nat) (v : Bool) : List (Nat × Nat) :=
  let key (k : Nat) : Nat × Nat :=
    match r with
    | .hold i => (0, 256 * l + (i.toNat + k))
    | .near i => (1, 16 * l + (i.toNat + k))
    | .uniform i => (3, i.toNat + k)
  (List.range n).foldl (fun ps k => setPoison ps (key k) v) ps

/-- Destinations in the lanes of `g`, a uniform one from one lane. -/
def poisonDsts (ps : List (Nat × Nat)) (i : Instr) (set g : Mask) (bad : Nat → Bool) : List (Nat × Nat) :=
  i.shape.dsts.foldl (fun ps d =>
    match d.1 with
    | .uniform _ =>
      let l := lowest (if i.crosses then g else set)
      if g != 0 && hasLane g l then poisonDst ps d.1 d.2 l (bad l) else ps
    | _ => (laneList g).foldl (fun ps l => poisonDst ps d.1 d.2 l (bad l)) ps) ps

/-- The latches shift with their poison. -/
def poisonShift (ps : List (Nat × Nat)) (set g : Mask) (bad : Nat → Bool) : List (Nat × Nat) :=
  (laneList set).foldl (fun qs l =>
    let was (k : Nat) : Bool := ps.contains (2, 4 * l + k)
    [(3, was 2), (2, was 1), (1, was 0), (0, hasLane g l && bad l)].foldl (fun qs x => setPoison qs (2, 4 * l + x.1) x.2) qs)
    ps

/-- Pushes of an `LPUSH`: a target takes the poison of its source; with a poisoned index every lane does. -/
def poisonPush (ps : List (Nat × Nat)) (d : Dst) (b : Opd) (g : Mask) (tgt : Nat → Nat) (bad : Nat → Bool) :
    List (Nat × Nat) :=
  match d with
  | .none => ps
  | .reg r _ =>
    if (laneList g).any (fun l => poisonedOpd ps l 1 b) then lanes.foldl (fun ps l => poisonDst ps r 1 l true) ps
    else (laneList g).foldl (fun qs t =>
      match pushFrom g tgt t with
      | some k => poisonDst qs r 1 t (bad k)
      | none => qs) ps

/-- The poison after a register instruction of the run-ahead set. -/
def poisonAfter (ps : List (Nat × Nat)) (i : Instr) (w : Warp) (iss : Issue) : List (Nat × Nat) :=
  let sh := i.shape
  let g := w.guarded iss.mask sh.guard ||| maskOf (fun l => hasLane iss.mask l && poisonedGuard ps sh l)
  let bad (l : Nat) : Bool := poisonedLane ps i l || (depLanes i w iss g l).any (fun k => poisonedLane ps i k)
  let qs := match i with
    | .lpush h d _ b _ => poisonPush ps d b g (fun l => (b.val w iss h.lit l .i32).toNat % 32) bad
    | _ => poisonDsts ps i iss.mask g bad
  let qs := match i.predDst with
    | some p => if p = 7 then qs else (laneList g).foldl (fun qs l => setPoison qs (4, 32 * p.toNat + l) (bad l)) qs
    | none => qs
  if i.shifts then
    let sf := poisonShift ps iss.mask g bad
    qs.filter (fun (x : Nat × Nat) => x.1 != 2) ++ sf.filter (fun (x : Nat × Nat) => x.1 == 2)
  else qs

/-! ### Shadow execution -/

/-- A quadrant is asked to give up its device's warps, or the debugger halts a group of the warp, and `NOPRE` does not stand
against it (R344, R346, R417). -/
def State.asked (s : State) (gw : Nat) : Bool :=
  let w := s.warp gw
  let req : Bool := match (s.quad (quadOfWarp gw)).req with
    | some r => r.vdev == w.vdev
    | none => false
  (req || !w.halts.isEmpty) && !w.nopre && !w.inPre

/-- A breakpoint slot of the device names this PC of this launch (R414). -/
def Contract.breaksAt (c : Contract) (lseq : Word) (pc : Dword) : Bool :=
  (List.range 8).any (fun i =>
    let d0 := NMap.get 0 c.debug (4 + 2 * i)
    let d1 := NMap.get 0 c.debug (5 + 2 * i)
    field d0 63 62 == 1 && field d0 56 0 == field pc 56 0 && lo32 d1 == lseq)

/-- A meaning run on the shadow of the warp: what the warp becomes, results in flight included when `land`; none when it
would trap, stall or stop. -/
def State.shadowRun (s : State) (gw : Nat) (iss : Issue) (w : Warp) (f : State → Res) (land : Bool) : Option Warp :=
  let s0 := { s.setWarp gw w with iss := iss }
  match f s0 with
  | .next s1 =>
    let w1 := s1.warp gw
    let fs := s1.flights.filter (fun x => decide (s.nextId ≤ x.id) && x.gw == gw)
    if (s1.contract w.vdev).fseqc != (s.contract w.vdev).fseqc then none
    else if !((laneList iss.mask).all (fun l => (w1.thread l).stat == .ready)) then none
    else some (if land then fs.foldl (fun w x => x.writes.foldl Warp.applyW w) w1 else w1)
  | _ => none

/-- The run-ahead set after a shadow instruction; it ends where its lanes part. -/
def State.runTo (s : State) (gw : Nat) (r : Run) (w : Warp) (ps : List (Nat × Nat)) : State :=
  let pc := (w.thread (lowest r.lanes)).pc
  if (laneList r.lanes).all (fun l => (w.thread l).pc == pc) then
    { s with runs := NMap.put s.runs gw { r with shadow := w, pc := pc, count := r.count + 1, poison := ps } }
  else s.endRun gw

/-- A line of a memory instruction in run-ahead: the cause when it misses; no `D` bit is set (R216). -/
def State.runLine (s : State) (die vdev : Nat) (va : Dword) (write : Bool) : State × Option Byte :=
  match (s.contract vdev).window? va with
  | some _ =>
    match s.translate die vdev va write false with
    | (s, .fault c) => (s, some c)
    | (s, _) => (s, none)
  | none =>
    match s.leaf die vdev va with
    | (s, .error c) => (s, some c)
    | (s, .ok (e, _)) => (s, if write && !pteW e then some cPageProtection else none)

/-- Lines in ascending order: those that miss, or a cause that is no page fault. -/
def State.runLines (s : State) (die vdev : Nat) (write : Bool) : List Nat → State × Except Byte (List Nat)
  | [] => (s, .ok [])
  | ln :: ls =>
    match s.runLine die vdev (BitVec.ofNat 64 (128 * ln)) write with
    | (s, none) => s.runLines die vdev write ls
    | (s, some c) =>
      if c = cPageNotPresent ∨ c = cPageProtection then
        match s.runLines die vdev write ls with
        | (s, .ok ps) => (s, .ok (ln :: ps))
        | r => r
      else (s, .error c)

/-- A line that missed adds its page to the batch of the lowest lane that touches it (R216, R218). -/
def FaultBatch.addLine (b : FaultBatch) (locs : List (Nat × Nat)) (ln : Nat) : FaultBatch :=
  match locs.find? (fun x => x.2 / 128 == ln) with
  | some (l, _) =>
    if hasLane b.lanes l then
      let a := addPages b.pages b.ovr [pageOf (128 * ln)]
      { b with pages := a.1, ovr := a.2, runa := b.runa || decide (b.pages.length < a.1.length) }
    else b
  | none => b

/-- A device access of the run-ahead set (R216, R217): its lanes `m`, record, index and size. A poisoned guard in some lane
ends the run-ahead, as a poisoned address does: R216 and R217 do not say (assumption 24). -/
def State.runMem (s : State) (gw : Nat) (r : Run) (i : Instr) (iss : Issue) (m : Mask) (rec' : BufRec) (idx : Nat → Nat)
    (size : Nat) (write : Bool) (addr : List (Opd × Nat)) : State :=
  let sh := i.shape
  let w := r.shadow
  let c := s.contract w.vdev
  let as := (laneList m).map (fun l => (l, rec'.addr (idx l) size))
  let locs := locsOf as
  if (laneList r.lanes).any (fun l => poisonedGuard r.poison sh l) ||
      (laneList m).any (fun l => addr.any (fun x => poisonedOpd r.poison l x.2 x.1)) ||
      (m != 0 && rec'.bad write) || !(failsOf as).isEmpty || locs.any (fun x => (c.watchHit write x.2 size).isSome) then
    s.endRun gw
  else
    match s.runLines (dieOfQuad iss.quad) w.vdev write (linesOf locs) with
    | (s, .error _) => s.endRun gw
    | (s, .ok ps) =>
      let bs := r.batches.map (fun b => ps.foldl (fun b ln => b.addLine locs ln) b)
      let w := (sh.dsts.foldl (fun (w : Warp) d => (laneList m).foldl (fun w l =>
        (List.range d.2).foldl (fun w k => match d.1 with
          | .near j => w.markNear (.near (16 * l + (j.toNat + k)) 0)
          | _ => w) w) w) w).advance iss
      let pz := if write then r.poison else poisonDsts r.poison i r.lanes m (fun _ => true)
      s.runTo gw { r with batches := bs } w pz

/-- Registers of an instruction whose result is still on its way. -/
def State.regsPending (s : State) (gw : Nat) (set : Mask) (sh : Shape) : Bool :=
  let ws := s.onTheWay gw
  let hits (l : Nat) (r : DReg) (n : Nat) : Bool :=
    (List.range n).any (fun k => ws.any (fun x => match x, r with
      | .hold a _, .hold i => a == 256 * l + (i.toNat + k)
      | .near a _, .near i => a == 16 * l + (i.toNat + k)
      | .uni a _, .uniform i => a == i.toNat + k
      | _, _ => false))
  let src (l : Nat) (x : Opd × Nat) : Bool :=
    match x.1 with
    | .hold i => hits l (.hold i) x.2
    | .near i => hits l (.near i) x.2
    | .uniform i => hits l (.uniform i) x.2
    | _ => false
  !ws.isEmpty && (laneList set).any (fun l => sh.srcs.any (src l) || sh.dsts.any (fun d => hits l d.1 d.2))

/-- One decoded instruction of the run-ahead set. -/
def State.runInstr (s : State) (gw : Nat) (r : Run) (i : Instr) (iss : Issue) : State :=
  let sh := i.shape
  let w := r.shadow
  let g := w.guarded r.lanes sh.guard
  let anyBad : Bool := (laneList r.lanes).any (fun l => poisonedLane r.poison i l)
  let after : List (Nat × Nat) := poisonAfter r.poison i w iss
  let done (o : Option Warp) (ps : List (Nat × Nat)) : State :=
    match o with
    | some w => s.runTo gw r w ps
    | none => s.endRun gw
  if sh.seals || i.isHeader || i.isWide || 256 ≤ r.count || (sh.check w r.lanes).isSome ||
      (s.contract w.vdev).breaksAt w.lseq r.pc then s.endRun gw
  else
    match i.regOnly with
    | some f => if i.isBranch && anyBad then s.endRun gw else done (s.shadowRun gw iss w f true) after
    | none =>
      match i with
      | .ld h sz _ _ b x =>
        s.runMem gw r i iss g (w.bufRec b) (fun l => (lo32 (x.val w iss h.lit l .i32)).toNat) (ldBytes sz) false sh.srcs
      | .ldw h wd _ _ b x =>
        let m : Mask := if hasLane g (lowest r.lanes) then laneBit (lowest r.lanes) else 0
        s.runMem gw r i iss m (w.bufRec b) (fun l => (lo32 (x.val w iss h.lit l .i32)).toNat) (4 * atomRegs wd) false sh.srcs
      | .st h sz _ b x _ =>
        s.runMem gw r i iss g (w.bufRec b) (fun l => (lo32 (x.val w iss h.lit l .i32)).toNat) (stBytes sz) true
          (sh.srcs.take 2)
      | .lds h sz o d a b =>
        if anyBad then s.endRun gw
        else done (s.shadowRun gw iss w (execLds h sz o d a b) false) (poisonDsts r.poison i r.lanes g (fun _ => true))
      | .ldx h sz o c d a b =>
        if anyBad then s.endRun gw
        else done (s.shadowRun gw iss w (execLdx h sz o c d a b) false) (poisonDsts r.poison i r.lanes g (fun _ => true))
      | .sts h sz o a b c =>
        if (laneList g).any (fun l => poisonedOpd r.poison l 1 a || poisonedOpd r.poison l 1 b) then s.endRun gw
        else done (s.shadowRun gw iss w (execSts h sz o a b c) false) r.poison
      | .stx h sz o k a b c =>
        if (laneList g).any (fun l => poisonedOpd r.poison l 1 a || poisonedOpd r.poison l 1 b) then s.endRun gw
        else done (s.shadowRun gw iss w (execStx h sz o k a b c) false) r.poison
      | .fence .. => s.runTo gw r (w.advance iss) r.poison
      | .tagq h d a => done (s.shadowRun gw iss w (execTagq h d a) true) after
      | .tagi h a b c => if anyBad then s.endRun gw else done (s.shadowRun gw iss w (execTagi h a b c) false) r.poison
      | .tagx h a => if anyBad then s.endRun gw else done (s.shadowRun gw iss w (execTagx h a) false) r.poison
      | .btest h x pd a b par =>
        if anyBad then s.endRun gw else done (s.shadowRun gw iss w (execBtest h x pd a b par) true) after
      | _ => s.endRun gw

/-- `RUN_AHEAD_ISSUE`: the run-ahead set of a warp issues one shadow instruction, or stops (R216, R217). -/
def dueRunAheadIssue (gw : Nat) (s : State) : Option State :=
  match s.runs.find? (fun x => x.1 == gw) with
  | none => none
  | some (_, r) =>
    let q := quadOfWarp gw
    let v := r.shadow.vdev
    let w := r.shadow.mapThreads r.lanes (fun _ t => { t with pc := r.pc, stat := .ready })
    let r := { r with shadow := w }
    match s.fetch (coreOfQuad q) v r.pc with
    | .miss va _ =>
      match s.translate (dieOfQuad q) v (BitVec.ofNat 64 (va.toNat - va.toNat % 128)) false true with
      | (s, .ok k _) => some (s.fillLine q v va k)
      | (s, _) => some (s.endRun gw)
    | .words ws =>
      match decode ws with
      | .error _ => some (s.endRun gw)
      | .ok i =>
        if s.regsPending gw r.lanes i.shape then none
        else
          let iss : Issue := { quad := q, slot := gw % 16, mask := r.lanes, pc := r.pc, words := ws.length,
                               clk := (s.quad q).clock }
          some (s.runInstr gw r i iss)

/-- `RUN_AHEAD_ISSUE`: as `dueRunAheadIssue` has it; while the event is not due it does not take place, and nothing changes (assumption 14). -/
def execRunAheadIssue (gw : Nat) (s : State) : Res :=
  State.after s (dueRunAheadIssue gw s)

end Sys2Proof.Machine
end

