-- ==== Sys2Proof/Machine/Sets.lean ====
section
/-! DEFINITION. The sets of a warp and which of them issues (spec/02 R19; spec/07 R161 to R164): grouping by PC, threads that
pre-emption or a halt holds (spec/18 R344), eligibility, and the choice of the quadrant. -/

namespace Sys2Proof.Machine

/-! ### Sets -/

/-- A thread that can stand in a set: ready, or waiting at its instruction to try it again. -/
def Thread.stands (t : Thread) : Bool :=
  match t.stat with
  | .ready => true
  | .stalled n => decide (n ≤ 1)
  | _ => false

def Thread.isReady (t : Thread) : Bool := t.stat == .ready

/-- The next instruction at a PC is a `STRAND` header. -/
def State.headerAt (s : State) (core vdev : Nat) (pc : Dword) : Bool :=
  match s.fetch core vdev pc with
  | .words ws =>
    match decode ws with
    | .ok i => i.isHeader
    | .error _ => false
  | .miss _ _ => false

/-- A thread that issues nothing more (R344): at a boundary, before a header, parked, in run-ahead or blocked. -/
def State.heldThread (s : State) (gw l : Nat) : Bool :=
  let w := s.warp gw
  let t := w.thread l
  match t.stat with
  | .ready | .stalled 0 | .stalled 1 => t.atBoundary || s.headerAt (coreOfQuad (quadOfWarp gw)) w.vdev t.pc
  | .stalled _ | .gang => false
  | _ => true

/-- Lanes that may issue, as far as holds go. -/
def State.freeLanes (s : State) (gw : Nat) : Mask :=
  let w := s.warp gw
  if s.asked gw then maskOf (fun l => hasLane w.live l && (w.thread l).stands && !(s.heldThread gw l))
  else maskOf (fun l => hasLane w.live l && (w.thread l).stands)

/-- The sets of a warp by PC, lowest first: PC, lanes, lanes that are ready. -/
def State.sets (s : State) (gw : Nat) : List (Dword × Mask × Mask) :=
  let w := s.warp gw
  let m := s.freeLanes gw
  let pcs := (laneList m).foldl (fun ps l => insertNat (w.thread l).pc.toNat ps) []
  pcs.map (fun p =>
    let at' := maskOf (fun l => hasLane m l && (w.thread l).pc.toNat == p)
    (BitVec.ofNat 64 p, at', maskOf (fun l => hasLane at' l && (w.thread l).isReady)))

/-! ### Eligibility (R161) -/

/-- An SFU result is outstanding for a thread of a mask (R98). -/
def State.sfuOut (s : State) (gw : Nat) (m : Mask) : Bool :=
  s.flights.any (fun f => f.gw == gw && f.kind == .sfu && (f.mask &&& m) != 0)

/-- The matrix unit of a quadrant is busy: a matrix, tile or spot instruction has issued there and not completed, `SSTAT`
included (R255, R266). -/
def State.unitBusy (s : State) (q : Nat) : Bool := s.flights.any (fun f => f.iss.quad == q && f.kind == .matrix)

/-- Threads that have just entered the trap handler while results for their hold or uniform registers are on their way
(R208). -/
def State.trapPending (s : State) (gw : Nat) (m : Mask) : Bool :=
  let w := s.warp gw
  let fresh (l : Nat) : Bool :=
    let t := w.thread l
    t.trap.inTrap && t.needHdr && t.pc == w.handler
  let entered := maskOf (fun l => hasLane w.live l && fresh l)
  (laneList m).any fresh && s.flights.any (fun f => f.gw == gw && (f.mask &&& entered) != 0 && !(s.landing f).isEmpty)

/-- The instruction at a PC, when its words are in the cache and decode. -/
def State.instrAt (s : State) (core vdev : Nat) (pc : Dword) : Option Instr :=
  match s.fetch core vdev pc with
  | .words ws =>
    match decode ws with
    | .ok i => some i
    | .error _ => none
  | .miss _ _ => none

/-- A set can issue in this clock. One whose instruction is not in the cache, or does not decode, counts as eligible. -/
def State.eligible (s : State) (gw : Nat) (pc : Dword) (m : Mask) : Bool :=
  let q := quadOfWarp gw
  let x := s.quad q
  !(s.trapPending gw m) &&
  (match s.instrAt (coreOfQuad q) (s.warp gw).vdev pc with
   | none => true
   | some i =>
     !(s.regsPending gw m i.shape) && !(i.isSfu && decide (x.clock < x.sfuFree)) && !(i.takesUnit && s.unitBusy q) &&
       !(i.shape.seals && s.sfuOut gw m))

/-- The eligible sets of a warp, lowest PC first. Whether one that waits for a condition of its own can issue, its attempt
says. -/
def State.eligibleSets (s : State) (gw : Nat) : List (Dword × Mask) :=
  ((s.sets gw).filter (fun x => s.eligible gw x.1 x.2.1)).map (fun x => (x.1, x.2.1))

/-- Some set of the warp that does not wait at its instruction is eligible. -/
def State.anyEligible (s : State) (gw : Nat) : Bool :=
  (s.sets gw).any (fun x => x.2.2 != 0 && s.eligible gw x.1 x.2.1)

/-! ### Parity of what an instruction names (R356, R357) -/

/-- Words with parity that the issuing set's instruction reads or writes outside the scratchpad and the near tier: hold registers,
the tag share, and the tensor table's entries that it names (R356). -/
def State.issueWords (s : State) (i : Instr) : List (Nat × Nat) :=
  let w := s.iw
  let sh := i.shape
  let g := laneList (sh.lanes s.iss.mask (w.guarded s.iss.mask sh.guard))
  let gw := s.iss.gw
  let held (l : Nat) (r : BitVec 8) (n : Nat) : List (Nat × Nat) := [(holdWord gw (256 * l + r.toNat), n)]
  let regs := (g.map (fun l =>
    (sh.srcs.map (fun x => match x.1 with
      | .hold r => held l r x.2
      | _ => [])).flatten ++
    (sh.dsts.map (fun x => match x.1 with
      | .hold r => held l r x.2
      | _ => [])).flatten)).flatten
  let slots := match i.handles, g with
    | some (lit, os), l :: _ =>
      os.map (fun (o : Opd) => ((s.contract w.vdev).slotKey (lo32 (o.val w s.iss lit l .i32)).toNat / 64 * 16, 16))
    | _, _ => []
  let saves := match i with
    | .saveHold h a b => (laneList w.live).map (fun l => (holdWord gw (256 * l + (s.handleOf h a).toNat), (s.handleOf h b).toNat))
    | _ => []
  regs ++ slots ++ saves ++ (if i.usesTags then [(tagWord (coreOfQuad s.iss.quad) s.tagShare.1, 2 * s.tagShare.2)] else [])

/-- The issuing instruction meets those words: the state after any repair, none when one cannot be repaired (R357). -/
def State.meetIssue (s : State) (i : Instr) : Option State := if s.badW.isEmpty then some s else s.meetAll (s.issueWords i)

/-! ### The choice (R162, R163) -/

/-- Active warps of a quadrant. -/
def Quad.active (x : Quad) : List Nat :=
  x.win.filterMap (fun p => match p with
    | .warp k => some k
    | _ => none)

/-- `cur`: its lanes are still exactly the ready threads at one PC. -/
def State.curSet (s : State) (q : Nat) : Option (Nat × Mask × Dword) :=
  match (s.quad q).cur with
  | none => none
  | some (k, m, _) =>
    let gw := 16 * q + k
    let pc := ((s.warp gw).thread (lowest m)).pc
    match (s.sets gw).find? (fun x => x.1 == pc) with
    | some x => if x.2.1 == m && (s.quad q).active.contains k then some (k, m, pc) else none
    | none => none

/-- Rank of `LAST`: "never" is oldest. -/
def lastRank (w : Warp) : Nat :=
  match w.last with
  | none => 0
  | some c => c + 1

/-- The sets that the quadrant may issue in this clock, in the order of R163: `cur`; the sets of V; those of the other active
warps, the oldest `LAST` first; of one warp the lowest PC first. Each is slot, lanes, PC. -/
def State.order (s : State) (q : Nat) : List (Nat × Mask × Dword) :=
  let x := s.quad q
  let sets (k : Nat) : List (Nat × Mask × Dword) := (s.eligibleSets (16 * q + k)).map (fun y => (k, y.2, y.1))
  let cur := (s.curSet q).toList.filter (fun y => s.eligible (16 * q + y.1) y.2.2 y.2.1)
  let v := match x.cur with
    | some (k, _, _) => if x.active.contains k then sets k else []
    | none => []
  let ks := (x.active.foldl (fun rs k => insertNat (lastRank (s.warp (16 * q + k)) * 16 + k) rs) []).map (fun r => r % 16)
  cur ++ v ++ (ks.map sets).flatten

/-- The first of them: the set that the quadrant chooses (R163). -/
def State.choose (s : State) (q : Nat) : Option (Nat × Mask × Dword) := (s.order q).head?

end Sys2Proof.Machine
end

