-- ==== Sys2Proof/Machine/Window.lean ====
section
/-! DEFINITION. The active window (spec/07 R165 to R170): candidates, and the events `WINDOW_FILL`, `WINDOW_EXCHANGE` and
`WINDOW_EXCHANGE_DONE`. -/

namespace Sys2Proof.Machine

/-- Slots of a quadrant's resident warps. -/
def State.slots (s : State) (q : Nat) : List Nat :=
  (s.resident.filter (fun gw => quadOfWarp gw == q)).map (fun gw => gw % 16)

/-- A slot in the window, or in an exchange. -/
def Pos.holds (k : Nat) : Pos → Bool
  | .empty => false
  | .warp i => i == k
  | .exch o inc _ => o == k || inc == some k

/-- A thread is ready as R19 has it, one that has issued and waits for its operation included. -/
def Thread.ready19 (t : Thread) : Bool :=
  match t.stat with
  | .ready | .stalled _ | .gang => true
  | _ => false

/-- Ready threads of a warp. -/
def Warp.readyLanes (w : Warp) : Mask := maskOf (fun l => hasLane w.live l && (w.thread l).ready19)

def Warp.anyReady (w : Warp) : Bool := w.readyLanes != 0

/-- Rank of an incoming candidate: a member that others of its gang wait for before all (R253), then one never in the window, then
the earliest to have left, ties to the lower slot (R167). -/
def inRank (w : Warp) (first : Bool) (k : Nat) : Nat :=
  if first then k
  else
    match w.leftAt with
    | none => 16 + k
    | some c => (c + 2) * 16 + k

/-- Incoming candidates in order. -/
def State.incoming (s : State) (q : Nat) : List Nat :=
  let x := s.quad q
  let ks := (s.slots q).filter (fun k => !(x.win.any (Pos.holds k)) && (s.warp (16 * q + k)).anyReady)
  (ks.foldl (fun rs k => insertNat (inRank (s.warp (16 * q + k)) (s.gangFirst (16 * q + k)) k) rs) []).map (fun r => r % 16)

/-- Every non-exited thread is at a strand boundary (R41). -/
def Warp.allAtBoundary (w : Warp) : Bool := (laneList w.live).all (fun l => (w.thread l).atBoundary)

/-- Kind of an outgoing candidate: 0 blocked, 1 gang-waiting, 2 served (R166). -/
def State.outKind (s : State) (q k : Nat) : Option Nat :=
  let gw := 16 * q + k
  let w := s.warp gw
  if (w.allAtBoundary) && !w.anyReady then some 0
  else if (w.gang.isSome || w.gangEnd) && !(s.anyEligible gw) then some 1
  else if w.allAtBoundary && decide (w.enteredAt + 4096 ≤ (s.quad q).clock) then some 2
  else none

/-- The warp issued in the clock that has just passed. -/
def Quad.issuedNow (x : Quad) (k : Nat) : Bool :=
  x.issued && (match x.cur with
    | some (i, _, _) => i == k
    | none => false)

/-- The first outgoing candidate. -/
def State.outgoing (s : State) (q : Nat) : Option Nat :=
  let x := s.quad q
  let ks := x.active.filterMap (fun k => if x.issuedNow k then none else (s.outKind q k).map (fun c => (c, k)))
  (minBy (fun (c : Nat × Nat) => (c.1 * 2 ^ 80 + lastRank (s.warp (16 * q + c.2))) * 16 + c.2) ks).map (·.2)

def Quad.exchanging (x : Quad) : Bool := x.win.any (fun p => match p with
  | .exch _ _ _ => true
  | _ => false)

/-- A blocked thread that a swap has taken resumes by issuing its instruction again (R141, R302). -/
def Thread.reissue (t : Thread) : Thread :=
  match t.stat with
  | .waitj _ _ | .sleepj _ _ | .bwait _ _ => { t with stat := .ready }
  | _ => t

/-- A warp enters the window: `LAST` is "never", latches and near values are lost, and its blocked threads issue their
instructions again (R141, R162, R165). -/
def Warp.enter (w : Warp) (clock : Nat) : Warp :=
  let all : Mask := BitVec.allOnes 32
  { ((w.mapThreads w.live (fun _ t => t.reissue)).loseLatches all).loseNear all with last := none, enteredAt := clock }

/-- Put candidates into empty positions, lowest position first. -/
def fillWin : List Pos → List Nat → List Pos × List Nat
  | [], _ => ([], [])
  | ps, [] => (ps, [])
  | .empty :: ps, k :: ks =>
    let r := fillWin ps ks
    (.warp k :: r.1, k :: r.2)
  | p :: ps, ks =>
    let r := fillWin ps ks
    (p :: r.1, r.2)

/-- An empty position and a candidate for it, with no exchange in progress (R168). -/
def State.canFill (s : State) (q : Nat) : Bool :=
  let x := s.quad q
  !x.exchanging && x.win.contains .empty && !(s.incoming q).isEmpty

/-- `WINDOW_FILL` (R168). In the clock of a fill no exchange is made. -/
def dueWindowFill (q : Nat) (s : State) : Option State :=
  if !(s.canFill q) then none
  else
    let x := s.quad q
    let r := fillWin x.win (s.incoming q)
    let s := s.setQuad q { x with win := r.1, outSnap := none }
    some (r.2.foldl (fun (s : State) k => s.setWarp (16 * q + k) ((s.warp (16 * q + k)).enter x.clock)) s)

/-- `WINDOW_FILL`: as `dueWindowFill` has it; while the event is not due it does not take place, and nothing changes (assumption 14). -/
def execWindowFill (q : Nat) (s : State) : Res :=
  State.after s (dueWindowFill q s)

/-- What a clock that ends decides on an exchange: the first outgoing candidate, with its ready lanes (R166, R169); none while an
exchange is in progress, or when no candidate waits outside, or a position for it is empty (R168). -/
def State.decided (s : State) (q : Nat) : Option (Nat × Mask) :=
  if (s.quad q).exchanging || s.canFill q || (s.incoming q).isEmpty then none else (s.outgoing q).map (fun o => (o, (s.warp (16 * q + o)).readyLanes))

/-- The pair that exchanges places (R168): none when a position is empty and a candidate waits for it, or when a thread of the
outgoing warp has become ready in the clock of the decision (R169). -/
def State.exchangePair (s : State) (q : Nat) : Option (Nat × Nat) :=
  let x := s.quad q
  if x.exchanging || s.canFill q then none
  else
    match x.outSnap, (s.incoming q).head? with
    | some (o, m), some i =>
      if x.active.contains o && (s.warp (16 * q + o)).readyLanes &&& ~~~ m == 0 then some (o, i) else none
    | _, _ => none

/-- A gang-waiting warp goes out: its threads are taken back, and with a started gang every member (R166, R254). -/
def State.swapOut (s : State) (gw : Nat) : State :=
  let w := s.warp gw
  if w.allAtBoundary then s else s.restartThreads gw w.offBoundary

/-- `WINDOW_EXCHANGE`: decided in the clock that has just passed; the incoming warp is eligible from the fifth clock (R168,
R169). -/
def dueWindowExchange (q : Nat) (s : State) : Option State :=
  match s.exchangePair q with
  | none => none
  | some (o, i) =>
    let s := (s.endRun (16 * q + o)).swapOut (16 * q + o)
    let x := s.quad q
    let t := x.clock - 1
    let s := s.setQuad q { x with win := x.win.map (fun p => if p == .warp o then .exch o (some i) (t + 4) else p), outSnap := none }
    let w := s.warp (16 * q + o)
    some (s.setWarp (16 * q + o) { w with leftAt := some t })

/-- `WINDOW_EXCHANGE`: as `dueWindowExchange` has it; while the event is not due it does not take place, and nothing changes (assumption 14). -/
def execWindowExchange (q : Nat) (s : State) : Res :=
  State.after s (dueWindowExchange q s)

/-- The exchange of a quadrant that is due. -/
def Quad.dueExchange (x : Quad) : Option (Nat × Option Nat) :=
  x.win.findSome? (fun p => match p with
    | .exch o i d => if d ≤ x.clock then some (o, i) else none
    | _ => none)

/-- `WINDOW_EXCHANGE_DONE` (R168, R169). -/
def dueWindowExchangeDone (q : Nat) (s : State) : Option State :=
  let x := s.quad q
  match x.dueExchange with
  | none => none
  | some (o, i) =>
    let new : Pos := match i with
      | some k => .warp k
      | none => .empty
    let s := s.setQuad q { x with win := x.win.map (fun p => match p with
      | .exch a b d => if a == o && d ≤ x.clock then new else .exch a b d
      | p => p) }
    match i with
    | none => some s
    | some k => some (s.setWarp (16 * q + k) ((s.warp (16 * q + k)).enter x.clock))

/-- `WINDOW_EXCHANGE_DONE`: as `dueWindowExchangeDone` has it; while the event is not due it does not take place, and nothing changes (assumption 14). -/
def execWindowExchangeDone (q : Nat) (s : State) : Res :=
  State.after s (dueWindowExchangeDone q s)

end Sys2Proof.Machine
end

