-- ==== Sys2Proof/Machine/Image.lean ====
section
/-! DEFINITION. The checkpoint image (spec/17 R330 to R336, spec/13 R289, R290): the front end's reads, the header, the
parcel, warp and group tables, the thread areas, and every check that refuses an image. -/

namespace Sys2Proof.Machine

/-! ### Reading -/

/-- Read `n` bytes through a device's page tables, 64-byte unit by unit; structural on a bound for their number. -/
def State.feReadUnits : Nat → State → Nat → Dword → Nat → State × Option (List Byte)
  | 0, s, _, _, _ => (s, some [])
  | f + 1, s, v, va, n =>
    if n = 0 then (s, some [])
    else if !(canonical va) then (s, none)
    else
      let a := min n (64 - va.toNat % 64)
      match s.feRead dieA v va a with
      | (s, .error _) => (s, none)
      | (s, .ok x) =>
        match State.feReadUnits f s v (va + BitVec.ofNat 64 a) (n - a) with
        | (s, some y) => (s, some (x ++ y))
        | (s, none) => (s, none)

/-- Read `n` bytes; none when some unit faults. -/
def State.feReadAll (s : State) (v : Nat) (va : Dword) (n : Nat) : State × Option (List Byte) :=
  State.feReadUnits (n / 64 + 2) s v va n

/-- Little-endian dwords of a byte list. -/
def dwordsOf : Nat → List Byte → List Dword
  | 0, _ => []
  | n + 1, bs => BitVec.ofNat 64 (leNat (bs.take 8)) :: dwordsOf n (bs.drop 8)

/-- Read `n` dwords. -/
def State.feDwords (s : State) (v : Nat) (va : Dword) (n : Nat) : State × Option (List Dword) :=
  match s.feReadAll v va (8 * n) with
  | (s, some bs) => (s, some (dwordsOf n bs))
  | (s, none) => (s, none)

/-- Do one read for each of a list; none when one of them gives none. -/
def State.readEach {α : Type} (f : State → Nat → State × Option α) : List Nat → State → State × Option (List α)
  | [], s => (s, some [])
  | i :: is, s =>
    match f s i with
    | (s, none) => (s, none)
    | (s, some a) =>
      match State.readEach f is s with
      | (s, none) => (s, none)
      | (s, some as') => (s, some (a :: as'))

/-- Dword `k` of a list. -/
def dw (d : List Dword) (k : Nat) : Dword := d.getD k 0

/-- An address plus a number of bytes. -/
def plus (a : Dword) (n : Nat) : Dword := a + BitVec.ofNat 64 n

/-- Canonical, and a multiple of `n`. -/
def aligned (a : Dword) (n : Nat) : Bool := canonical a && a.toNat % n == 0

/-! ### The header (R330) -/

def hdrKey (d : List Dword) : BitVec 16 := BitVec.ofNat 16 (field (dw d 0) 47 32)
def hdrNwarp (d : List Dword) : Nat := field (dw d 0) 31 16
def hdrNparc (d : List Dword) : Nat := field (dw d 0) 10 0
def hdrPtab (d : List Dword) : Dword := dw d 1
def hdrWtab (d : List Dword) : Dword := dw d 2
def hdrGtab (d : List Dword) : Dword := dw d 3
def hdrTtab (d : List Dword) : Dword := dw d 4
def hdrBusy (d : List Dword) : Dword := dw d 5
def hdrEdit (d : List Dword) : Bool := (dw d 6).getLsbD 1
def hdrResume (d : List Dword) : Bool := (dw d 6).getLsbD 0

/-- The header keeps its layout: reserved bits 0, the counts in range, the five addresses canonical and 64-byte
aligned. -/
def hdrOk (d : List Dword) : Bool :=
  field (dw d 0) 63 48 == 0 && field (dw d 0) 15 11 == 0 && field (dw d 6) 63 2 == 0 && dw d 7 == 0 &&
  decide (1 ≤ hdrNwarp d) && decide (hdrNwarp d ≤ 24576) && decide (1 ≤ hdrNparc d) && decide (hdrNparc d ≤ 1024) &&
  [1, 2, 3, 4, 5].all (fun k => aligned (dw d k) 64)

/-! ### Parcels (R331) -/

/-- Quadrants per core: none for the illegal code. -/
def qpcOf (c : Nat) : Option Nat :=
  match c with
  | 0 => some 1
  | 1 => some 2
  | 2 => some 4
  | _ => none

/-- Predecessor m of a parcel record. -/
def predOf (d : List Dword) (m : Nat) : Nat := field (dw d (40 + m / 4)) (16 * (m % 4) + 15) (16 * (m % 4))

/-- The reserved bits and ranges of parcel record i. -/
def parcelOk (nwarp i : Nat) (d : List Dword) : Bool :=
  let d0 := dw d 0
  let np := field d0 24 20
  field d0 31 30 == 0 && field d0 19 4 == 0 && field (dw d 1) 63 48 == 0 && dw d 2 == 0 &&
  field (dw d 4) 30 0 == 0 && dw d 6 == 0 && dw d 7 == 0 && (qpcOf (field d0 27 26)).isSome &&
  decide (1 ≤ field d0 63 48) && decide (field d0 63 48 ≤ 256) && decide (np ≤ 16) && decide (field d0 3 0 ≤ 8) &&
  decide (field (dw d 4) 47 39 ≤ 256) && field (dw d 3) 63 32 % 16 == 0 &&
  decide (field d0 47 32 + field d0 63 48 ≤ nwarp) &&
  (List.range 16).all (fun m => if m < np then decide (predOf d m < i) else predOf d m == 0)

/-- A parcel as its record gives it. -/
def parcelOf (i : Nat) (d : List Dword) : Parcel :=
  let d0 := dw d 0
  { pseq := i, state := .waiting, nwp := field d0 63 48, wfirst := field d0 47 32, ncore := field d0 29 28 + 1,
    qpc := (qpcOf (field d0 27 26)).getD 1, early := d0.getLsbD 25,
    preds := (List.range (field d0 24 20)).map (predOf d), wcet := field (dw d 1) 47 0, ssize := field (dw d 3) 63 32,
    sbase := field (dw d 3) 31 0, tbase := field (dw d 4) 38 31, tcount := field (dw d 4) 47 39,
    accv := BitVec.ofNat 16 (field (dw d 4) 63 48), acc := dw d 5,
    boxes := (List.range (field d0 3 0)).map (fun b => (List.range 4).map (fun k => dw d (8 + 4 * b + k))),
    place := [], quadsAt := [], resumed := false, triggered := false, kills := 0, cause := 0, clocks := 0, progress := 0,
    busy := [], idle := [], ranOn := [], imgScr := [], imgTags := [], imgAcc := [], imgFull := [], imgExt := [], imgOut := [] }

/-! ### Boxes (R336) -/

def boxHandle (b : List Dword) : Word := hi32 (dw b 0)
def boxCore (b : List Dword) : Nat := field (dw b 0) 24 23
def boxDest (b : List Dword) : Nat := field (dw b 0) 22 0
def boxE0 (b : List Dword) : Nat := field (dw b 1) 31 0
def boxE1 (b : List Dword) : Nat := field (dw b 1) 63 32
/-- Coordinates C0 to C3. -/
def boxCoords (b : List Dword) : List Word := [lo32 (dw b 2), hi32 (dw b 2), lo32 (dw b 3), hi32 (dw b 3)]

/-- The entry that a handle names in the bytes of a tensor table. -/
def ttEntry (tt : List Byte) (h : Word) : List Dword := dwordsOf 8 (tt.drop (64 * (h.toNat % 4096)))

/-- Bytes of a box, by the format of its handle's entry. -/
def boxBytes (tt : List Byte) (b : List Dword) : Nat :=
  halfUp (boxE0 b * boxE1 b * entHalves (ttEntry tt (boxHandle b)))

/-- A box keeps its layout, and its bytes lie in the parcel's extent on one of its cores. -/
def boxOk (tt : List Byte) (p : Parcel) (b : List Dword) : Bool :=
  field (dw b 0) 31 25 == 0 && decide (boxCore b < p.ncore) && decide (p.sbase ≤ boxDest b) &&
  decide (boxDest b + boxBytes tt b ≤ p.sbase + p.ssize)

/-! ### Warps (R332) -/

/-- A warp record. -/
structure WRec where
  num     : Nat
  tmask   : Mask
  hc      : Nat
  flush   : Bool
  lcore   : Nat
  lquad   : Nat
  slot    : Nat
  handler : Dword
  spill   : Dword
  stride  : BitVec 16
  jobs    : Word
  groups  : BitVec 36
  tstate  : Dword
  wstate  : Dword
deriving DecidableEq, Repr

def wrecOf (num : Nat) (d : List Dword) : WRec :=
  let d0 := dw d 0
  { num := num, tmask := hi32 d0, hc := 16 * (field d0 31 28 + 1), flush := d0.getLsbD 27, lcore := field d0 25 24,
    lquad := field d0 23 22, slot := field d0 21 18, handler := dw d 1, spill := dw d 2,
    stride := BitVec.ofNat 16 (field (dw d 3) 47 32), jobs := lo32 (dw d 3), groups := BitVec.ofNat 36 (dw d 4).toNat,
    tstate := dw d 5, wstate := dw d 6 }

/-- The reserved bits of a warp record, its stride and its handler (R334). A record whose `GV` has a gap keeps its memberships in
the slots that it names: no rule refuses or moves them (assumption 49). -/
def wrecOk (d : List Dword) : Bool :=
  let w := wrecOf 0 d
  field (dw d 0) 26 26 == 0 && field (dw d 0) 17 0 == 0 && field (dw d 3) 63 48 == 0 && field (dw d 4) 63 36 == 0 &&
  dw d 7 == 0 && w.stride.toNat % 16 == 0 && (w.handler == 0 || aligned w.handler 4)

/-- Local quadrant of a record. -/
def WRec.lq (w : WRec) : Nat := 4 * w.lcore + w.lquad

/-- Groups that a record joins (R288). -/
def WRec.inGroup (w : WRec) (g : Nat) : Bool :=
  [0, 1, 2, 3].any (fun m => w.groups.getLsbD (32 + m) && bits w.groups.toNat (8 * m + 7) (8 * m) == g)

/-- Records of one parcel keep R334: inside its shape, no two at one spot, hold counts of a quadrant at most 2,048, and
each accumulator warp stands. -/
def shapeOk (p : Parcel) (ws : List WRec) : Bool :=
  ws.all (fun w => decide (w.lcore < p.ncore) && decide (w.lquad < p.qpc)) &&
  decide ((ws.map (fun w => (w.lq, w.slot))).Nodup) &&
  (List.range 16).all (fun l =>
    decide ((ws.filter (fun w => w.lq == l)).foldl (fun n w => n + w.hc) 0 ≤ 2048)) &&
  (List.range 16).all (fun l => !(p.accv.getLsbD l) ||
    ws.any (fun w => w.lq == l && w.slot == field p.acc (4 * l + 3) (4 * l)))

/-! ### Threads (R333) -/

/-- Address of a lane's area. -/
def WRec.area (w : WRec) (l : Nat) : Dword := plus w.tstate (l * (128 + 4 * w.hc))

/-- A natural number from bytes `k` to `k + n - 1` of an area. -/
def at' (b : List Byte) (k n : Nat) : Nat := leNat ((b.drop k).take n)

/-- The first 128 bytes of an area keep their layout, and the PC is canonical and 4-byte aligned (R334). -/
def areaOk (b : List Byte) : Bool :=
  aligned (BitVec.ofNat 64 (at' b 0 8)) 4 && bits (at' b 16 1) 7 7 == 0 && decide (at' b 17 1 ≤ 4) &&
  bits (at' b 20 1) 7 2 == 0 && at' b 21 3 == 0 && bits (at' b 64 8) 22 0 == 0 && bits (at' b 88 1) 7 2 == 0 &&
  at' b 89 39 == 0

/-- An address as an area holds it (R333). -/
def adr (b : List Byte) (k : Nat) : Dword := canon (BitVec.ofNat 64 (at' b k 8))

/-- Return-stack entry as the thread holds it. -/
def stackEntry (b : List Byte) (k : Nat) : BitVec 55 := BitVec.ofNat 55 (bits (at' b k 8) 56 2)

/-- The thread that an area gives, with its `TRIG` mark: its first instruction must be a `STRAND` header, or at a resume point the
one at which it was blocked (R40, R141). In a fresh image the fields whose reset value is 0 are 0, whatever the area holds (R10,
R131, R223). -/
def threadOf (b : List Byte) (resumed trig : Bool) : Thread :=
  let t : Thread :=
    { Thread.init with
      pc := adr b 0, rpc := adr b 8, needHdr := true, again := resumed,
      e1 := stackEntry b 24, e2 := stackEntry b 32, e3 := stackEntry b 40, e4 := stackEntry b 48, trig := trig }
  let old : TrapState :=
    { pc := adr b 56, len := BitVec.ofNat 2 (at' b 20 1), fseq := BitVec.ofNat 32 (at' b 68 4),
      cause := BitVec.ofNat 8 (at' b 67 1), inTrap := bits (at' b 64 8) 23 23 == 1, rpc := adr b 72,
      survM := BitVec.ofNat 64 (at' b 80 8), survW := BitVec.ofNat 2 (at' b 88 1), since := 0 }
  if resumed then { t with live := at' b 17 1, depth := BitVec.ofNat 16 (at' b 18 2), trap := old }
  else { t with trap := { old with fseq := 0, cause := 0, inTrap := false } }

/-- Enter an area's thread, predicates and hold registers into a warp. -/
def Warp.enterArea (w : Warp) (l : Nat) (b : List Byte) (resumed trig : Bool) : Warp :=
  let w := w.setThread l (threadOf b resumed trig)
  let w := (List.range 7).foldl (fun (w : Warp) k =>
    if (at' b 16 1).testBit k then w.setPredMask k (w.predMask k ||| laneBit l) else w) w
  (List.range w.hc).foldl (fun (w : Warp) r => w.setHold l r (BitVec.ofNat 32 (at' b (128 + 4 * r) 4))) w

/-- Read the area of a lane. -/
def State.readArea (s : State) (v : Nat) (w : WRec) (l : Nat) : State × Option (Nat × List Byte) :=
  match s.feReadAll v (w.area l) (128 + 4 * w.hc) with
  | (s, some b) => if areaOk b then (s, some (l, b)) else (s, none)
  | (s, none) => (s, none)

/-- Read a warp's uniform registers and masks, and the areas of its threads. -/
def State.readThreads (s : State) (v : Nat) (w : WRec) : State × Option (List Byte × List (Nat × List Byte)) :=
  match s.feReadAll v w.wstate 320 with
  | (s, none) => (s, none)
  | (s, some ws) =>
    match State.readEach (fun s l => s.readArea v w l) (laneList w.tmask) s with
    | (s, none) => (s, none)
    | (s, some as') => (s, some (ws, as'))

/-- Warp record `i` of the table at an address. -/
def State.readWrec (s : State) (v : Nat) (wtab : Dword) (i : Nat) : State × Option WRec :=
  match s.feDwords v (plus wtab (64 * i)) 8 with
  | (s, none) => (s, none)
  | (s, some d) => if wrecOk d then (s, some (wrecOf i d)) else (s, none)

/-- The records of a parcel. -/
def State.readWrecs (s : State) (v : Nat) (wtab : Dword) (p : Parcel) : State × Option (List WRec) :=
  State.readEach (fun s i => s.readWrec v wtab i) ((List.range p.nwp).map (· + p.wfirst)) s

/-- The same, with every thread area read and checked. -/
def State.checkWarps (s : State) (v : Nat) (wtab : Dword) (p : Parcel) : State × Option (List WRec) :=
  match s.readWrecs v wtab p with
  | (s, none) => (s, none)
  | (s, some ws) =>
    if !(shapeOk p ws) then (s, none)
    else
      match State.readEach (fun s i => s.readThreads v (ws.getD i (wrecOf 0 []))) (List.range ws.length) s with
      | (s, none) => (s, none)
      | (s, some _) => (s, some ws)

/-- Every record of the warp table, also one that no parcel names, with its thread areas, keeps its layout (R334). -/
def State.checkTable (s : State) (v : Nat) (wtab : Dword) (n : Nat) : State × Option Unit :=
  let one (s : State) (i : Nat) : State × Option Unit :=
    match s.readWrec v wtab i with
    | (s, none) => (s, none)
    | (s, some w) =>
      match s.readThreads v w with
      | (s, none) => (s, none)
      | (s, some _) => (s, some ())
  match State.readEach one (List.range n) s with
  | (s, none) => (s, none)
  | (s, some _) => (s, some ())

/-! ### Sections of a saved image (R352) -/

/-- A parcel whose state a saved image carries and that has not started since (R352). -/
def Parcel.unresumed (p : Parcel) : Bool := p.resumed && (p.state == .ready || p.state == .staging)

/-- Accumulators that a parcel's `ACCV` names. -/
def Parcel.naccs (p : Parcel) : Nat := ((List.range 16).filter (fun l => p.accv.getLsbD l)).length

/-- Bytes of the scratchpad section, accumulator images and tag entries that parcels take. -/
def spadOf (ps : List Parcel) : Nat := ps.foldl (fun n y => n + y.ncore * y.ssize) 0
def accsOf (ps : List Parcel) : Nat := ps.foldl (fun n y => n + y.naccs) 0
def tagEntsOf (ps : List Parcel) : Nat := ps.foldl (fun n y => n + y.ncore * y.tcount) 0

/-- The reserved bits after an accumulator's residues: of the `L` dword, `SPOTCNT`, `SPOTVAR`, `SPOTNRM`, and the 32 bytes after
them (R281, R352). -/
def accTailOk (d : List Dword) : Bool :=
  field (dw d 0) 63 14 == 0 && field (dw d 1) 63 34 == 0 && field (dw d 2) 63 32 == 0 && field (dw d 3) 63 32 == 0 &&
  (d.drop 4).all (fun x => x == 0)

/-- The reserved bits of a saved image's sections (R201, R281, R334, R352): none where one is set, or cannot be read. -/
def State.checkSections (s : State) (v nwarp : Nat) (ext : List Dword) (ps : List Parcel) : State × Option Unit :=
  let rs := ps.filter (·.resumed)
  let acc (s : State) (i : Nat) : State × Option Unit :=
    match s.feDwords v (plus (dw ext 1) (131136 * i + 131072)) 8 with
    | (s, some d) => if accTailOk d then (s, some ()) else (s, none)
    | (s, none) => (s, none)
  match s.feDwords v (dw ext 2) (tagEntsOf rs), s.feDwords v (dw ext 6) nwarp, s.feDwords v (dw ext 7) ps.length with
  | (s, some ts), (_, some ws), (_, some es) =>
    if ts.all (fun d => field d 62 48 == 0) && ws.all (fun d => field d 31 0 == 0) && es.all (fun d => field d 15 2 == 0) then
      match State.readEach acc (List.range (accsOf rs)) s with
      | (s, some _) => (s, some ())
      | (s, none) => (s, none)
    else (s, none)
  | (s, _), _, _ => (s, none)

/-! ### Groups (R289, R290) -/

def gspan (e : Dword) : Nat := field e 50 48
def gvalid (e : Dword) : Bool := e.getLsbD 47

/-- Levels that may be the smallest to hold some members, each with its parcel (R290): within one parcel the core or the tract; across
parcels, whose places are not known yet, any level from the one that some parcel's members take. -/
def spansOf (ms : List (Nat × WRec)) : List Nat :=
  let ps := (ms.map (·.1)).eraseDups
  let wide (p : Nat) : Bool := decide (1 < (((ms.filter (fun m => m.1 == p)).map (fun m => m.2.lcore)).eraseDups).length)
  let low := if ps.any wide then 3 else 2
  if ps.length = 1 then [low] else [2, 3, 4, 5].filter (fun n => decide (low ≤ n))

/-- Whether entry `g` agrees with the memberships (R290). In a saved image, whose records no longer name the threads that have
exited, these stay counted in `NTHR`. -/
def groupOk (resumed : Bool) (all : List (Parcel × List WRec)) (g : Nat) (e : Dword) : Bool :=
  let ms := (all.map (fun x => (x.2.filter (fun w => w.inGroup g)).map (fun w => (x.1.pseq, w)))).flatten
  let n := ms.foldl (fun n m => n + laneCount m.2.tmask) 0
  field e 63 51 == 0 && field e 31 20 == 0 &&
  (if gvalid e then
    decide (1 ≤ ms.length) && field e 46 32 == ms.length && (spansOf ms).contains (gspan e) &&
      (if resumed then decide (n ≤ field e 19 0) else field e 19 0 == n)
   else ms.isEmpty)

end Sys2Proof.Machine
end

