-- ==== Sys2Proof/Machine/Launch.lean ====
section
/-! DEFINITION. Launches (spec/17): the parser and admission (R328, R329, R339), the queues and frames that deliver records
(R406 to R409, R436), placement, staging and start of a parcel (R336, R337, R340), its completion (R341, R342), and the
events `LAUNCH_RECORD`, `KICK`, `LAUNCH_FRAME`, `DISPATCH_PARCEL`, `STAGING_DONE`, `PARCEL_DONE`, `OVERRUN`, `HANG`. -/

namespace Sys2Proof.Machine

/-! ### Quadrants that fit (R171, R340) -/

/-- Bank sets of a division: first bank, number of banks, quadrants served (R171). -/
def divSets (div : Nat) : List (Nat × Nat × List Nat) :=
  match div with
  | 0 => [(0, 64, [0, 1, 2, 3])]
  | 1 => [(0, 32, [0, 1]), (32, 32, [2, 3])]
  | 2 => [(0, 32, [0, 1]), (32, 16, [2]), (48, 16, [3])]
  | 3 => [(0, 16, [0]), (16, 16, [1]), (32, 32, [2, 3])]
  | _ => [(0, 16, [0]), (16, 16, [1]), (32, 16, [2]), (48, 16, [3])]

/-- A quadrant belongs to a device. -/
def State.owns (s : State) (v q : Nat) : Bool := (s.owner q).toNat == v

/-- A placed parcel of the device holds the quadrant. -/
def State.taken (s : State) (v q : Nat) : Bool :=
  s.launches.any (fun x => x.vdev == v && x.parcels.any (fun p => p.quadsAt.any (fun y => y.2 == q)))

/-- Quadrants of one bank set of a core on which a parcel fits: with `free`, the core is in service and no other parcel
holds them. -/
def State.fitCore (s : State) (v : Nat) (p : Parcel) (free : Bool) (c : Nat) : Option (Nat × List Nat) :=
  let x := s.core c
  if free && !(x.service && x.survey == .none) then none
  else
    (divSets x.div).findSome? (fun (d : Nat × Nat × List Nat) =>
      let qs := (d.2.2.map (fun k => 4 * c + k)).filter (fun q => s.owns v q && !(free && s.taken v q))
      if p.qpc ≤ qs.length ∧ p.sbase + p.ssize ≤ d.2.1 * 131072 ∧ p.tbase + p.tcount ≤ 4 * d.2.1 then
        some (c, qs.take p.qpc)
      else none)

/-- Cores with a partition entry, in ascending order; the others are owned by nobody. -/
def State.knownCores (s : State) : List Nat := s.cores.map (·.1)

/-- Where a parcel goes: the lowest die, tract, cores and quadrants that fit (R340). -/
def State.fit (s : State) (v : Nat) (p : Parcel) (free : Bool) : Option (List (Nat × List Nat)) :=
  let cs := s.knownCores
  ((cs.map tractOfCore).eraseDups).findSome? (fun t =>
    let ok := (cs.filter (fun c => tractOfCore c == t)).filterMap (s.fitCore v p free)
    if p.ncore ≤ ok.length then some (ok.take p.ncore) else none)

/-- Banks of the largest set of the device that serves as many of its quadrants as the parcel takes of a core; 0 for none
(R334). -/
def State.bestSet (s : State) (v qpc : Nat) : Nat :=
  (s.knownCores.map (fun c => (divSets (s.core c).div).foldl (fun n (d : Nat × Nat × List Nat) =>
    if qpc ≤ (d.2.2.filter (fun k => s.owns v (4 * c + k))).length then max n d.2.1 else n) 0)).foldl max 0

/-! ### Admission (R339) -/

/-- Bytes of HBM4E in one policy-core clock: 49,152 GB/s at 500 MHz (spec/00). -/
def hbmBytesPerClock : Nat := 98304

/-- Estimate of one parcel in policy-core clocks, each quotient rounded up (assumption 20); none when it has no bound. -/
def State.parcelEst (s : State) (c : Contract) (tt : List Byte) (p : Parcel) : Option Nat :=
  let f := Config.clockAt (s.pwrNext.getD s.pwrlim)
  let bytes := p.boxes.foldl (fun n b => n + boxBytes tt b) 0
  if p.wcet = 0 ∨ (bytes ≠ 0 ∧ c.bwh = 0) then none
  else
    let box := if bytes = 0 then 0 else ceilDiv (bytes * 256) (c.bwh * hbmBytesPerClock)
    let scan := ceilDiv (1700000 * 500) f + ceilDiv (c.pbud.toNat * 500) f
    let off := if c.slice = 0 then 0 else Config.descheduled c.vdev p.wcet
    some (ceilDiv (p.wcet * 500) f + box + p.ncore * scan + off)

/-- Largest estimate of a path through the graph; predecessors have lower indices. -/
def State.pathEst (s : State) (c : Contract) (tt : List Byte) (ps : List Parcel) : Option Nat :=
  let all := ps.foldl (fun (acc : Option (NMap Nat)) p =>
    match acc, s.parcelEst c tt p with
    | some m, some e => some (NMap.set 0 m p.pseq (e + (p.preds.map (fun i => NMap.get 0 m i)).foldl max 0))
    | _, _ => none) (some [])
  all.map (fun m => (m.map (·.2)).foldl max 0)

/-- The backlog held for a device: what is left of the estimates of its launches that have not finished. -/
def State.backlog (s : State) (v : Nat) : Nat :=
  (s.launches.filter (fun x => x.vdev == v && !x.doneW && !x.endedW)).foldl (fun n x => n + (x.est - x.used)) 0

/-! ### The parser (R328, R329) -/

/-- Check 1. -/
def recordOk (d : List Dword) : Bool :=
  field (dw d 0) 7 2 == 0 && decide (field (dw d 0) 15 8 ≤ 7) && aligned (dw d 1) 64 && field (dw d 2) 63 48 == 0 &&
  aligned (dw d 3) 64 && field (dw d 4) 63 36 == 0 && decide (field (dw d 4) 35 32 ≤ 12) && dw d 5 == 0 &&
  dw d 6 == 0 && dw d 7 == 0

def recVdev (d : List Dword) : Nat := field (dw d 0) 31 16
def recLseq (d : List Dword) : Word := hi32 (dw d 0)

/-- A launch as its record gives it. -/
def launchOf (d : List Dword) : Launch :=
  { vdev := recVdev d, lseq := recLseq d, cls := field (dw d 0) 15 8, replay := (dw d 0).getLsbD 1,
    relaunch := (dw d 0).getLsbD 0, image := dw d 1, budget := field (dw d 2) 47 0, compl := dw d 3,
    cqlog := field (dw d 4) 35 32, ident := lo32 (dw d 4), rseq := 0, busyT := 0, resume := false, used := 0, clk := 0,
    key := 0, edit := false, stale := false, rmode := 0, groups := [], parcels := [], est := 0, doneW := false, settledW := false,
    endedW := false }

/-- Read parcel record i. -/
def State.readParcel (s : State) (v : Nat) (hdr : List Dword) (i : Nat) : State × Option Parcel :=
  match s.feDwords v (plus (hdrPtab hdr) (352 * i)) 44 with
  | (s, none) => (s, none)
  | (s, some d) => if parcelOk (hdrNwarp hdr) i d then (s, some (parcelOf i d)) else (s, none)

/-- A parcel of a saved image: its state and its clocks (R352). -/
def State.resumeParcel (s : State) (v : Nat) (pext : Dword) (p : Parcel) : State × Option Parcel :=
  match s.feDwords v (plus pext (8 * p.pseq)) 1 with
  | (s, none) => (s, none)
  | (s, some d) =>
    let p := { p with clocks := field (dw d 0) 63 16 }
    match field (dw d 0) 1 0 with
    | 0 => (s, some p)
    | 1 => (s, some { p with state := .ready })
    | 2 => (s, some { p with state := .ready, resumed := true })
    | _ => (s, some { p with state := .done })

/-- What a whole image reads as. -/
structure ImgRead where
  hdr     : List Dword
  /-- The resume extension of a saved image (R352). -/
  ext     : List Dword
  tt      : List Byte
  groups  : List Dword
  parcels : List (Parcel × List WRec)
deriving DecidableEq, Repr

/-- Read an image: none for a fault or a broken layout, as far as the bytes alone show it (check 4). -/
def State.readImage (s : State) (v : Nat) (image : Dword) : State × Option ImgRead :=
  match s.feDwords v image 8 with
  | (s, none) => (s, none)
  | (s, some h) =>
    if !(hdrOk h) then (s, none)
    else
      let r := if hdrResume h then s.feDwords v (plus image 64) 8 else (s, some [])
      match r with
      | (s, none) => (s, none)
      | (s, some ext) =>
        match State.readEach (fun s i => s.readParcel v h i) (List.range (hdrNparc h)) s, s.feDwords v (hdrGtab h) 256 with
        | (s, some ps), (_, some gs) =>
          match s.feReadAll v (hdrTtab h) 262144 with
          | (s, none) => (s, none)
          | (s, some tt) =>
            let ext1 (s : State) (i : Nat) : State × Option Parcel :=
              let p := ps.getD i (parcelOf i [])
              if hdrResume h then s.resumeParcel v (dw ext 7) p else (s, some p)
            match State.readEach ext1 (List.range ps.length) s with
            | (s, none) => (s, none)
            | (s, some ps) =>
              let one (s : State) (i : Nat) : State × Option (Parcel × List WRec) :=
                let p := ps.getD i (parcelOf i [])
                match s.checkWarps v (hdrWtab h) p with
                | (s, some ws) => (s, some (p, ws))
                | (s, none) => (s, none)
              match State.readEach one (List.range ps.length) s with
              | (s, none) => (s, none)
              | (s, some pw) =>
                match s.checkTable v (hdrWtab h) (hdrNwarp h) with
                | (s, none) => (s, none)
                | (s, some _) =>
                  let img : ImgRead := { hdr := h, ext := ext, tt := tt, groups := gs, parcels := pw }
                  if hdrResume h then
                    match s.checkSections v (hdrNwarp h) ext ps with
                    | (s, some _) => (s, some img)
                    | (s, none) => (s, none)
                  else (s, some img)
        | (s, _), _ => (s, none)

/-- The rest of check 4: boxes, groups, reserved bits of the tensor table (R236, R334), and sizes against the largest bank set of the parcel's shape. -/
def State.imageOk (s : State) (v : Nat) (r : ImgRead) : Bool :=
  r.parcels.all (fun x => x.1.boxes.all (fun b => boxOk r.tt x.1 b) &&
    (let n := s.bestSet v x.1.qpc
     n == 0 || (decide (x.1.sbase + x.1.ssize ≤ n * 131072) && decide (x.1.tbase + x.1.tcount ≤ 4 * n)))) &&
  (List.range 256).all (fun g => groupOk (hdrResume r.hdr) r.parcels g (r.groups.getD g 0)) &&
  (List.range 4096).all (fun i => at' r.tt (64 * i) 3 % 2 ^ 23 == 0) &&
  (r.ext == [] || field (dw r.ext 4) 63 16 == 0)

/-- Check 5. -/
def State.inContract (s : State) (c : Contract) (r : ImgRead) : Bool :=
  r.parcels.all (fun x => decide (x.1.ncore * x.1.qpc ≤ c.qres.toNat) && (s.fit c.vdev x.1 false).isSome)

/-- Checks 1 to 3 of R329: the reason of the first that fails, 0 for none. While ownership moves, every launch is refused
as not permitted (R441). -/
def State.recordReason (s : State) (bound : Bool) (d : List Dword) : Nat :=
  let c := s.contract (recVdev d)
  let age := (recLseq d - c.lseql).toNat
  if !(recordOk d) then 1
  else if !c.v || !bound || s.transfer then 2
  else if age = 0 ∨ 2 ^ 31 < age then 3
  else 0

/-- A refusal: its record with the reason, or a count in `DROP` when `COMPL` cannot be used (R329). `est` is the estimate;
where there is none its value is free. -/
def State.refuse (s : State) (d : List Dword) (reason : Nat) (est : Option Nat) : State :=
  let v := recVdev d
  let c := s.contract v
  if !c.v then s
  else
    let drop (s : State) : State := s.setContract v { s.contract v with drop := (s.contract v).drop + 1 }
    if !(aligned (dw d 3) 64) then drop s
    else
      let r : State × Dword := match est with
        | some e => (s, BitVec.ofNat 64 e)
        | none => s.free
      let ds := complDwords (recLseq d) 0xFFFF 3 reason (lo32 (dw d 4)) 1 r.2.toNat
      match r.1.feStore dieA v (plus (dw d 3) (32 * (1 % 2 ^ field (dw d 4) 35 32))) (dwordBytes ds) with
      | (s, .ok _) => s
      | (_, .error _) => if reason ≤ 2 then drop s else s

/-- Store bytes over a range: cleared, then every byte that is not 0. -/
def State.setRange (s : State) (k : Nat) (bs : List Byte) : State :=
  ((List.range bs.length).zip bs).foldl (fun (s : State) (x : Nat × Byte) => if x.2 = 0 then s else s.setByte (k + x.1) x.2)
    (s.zero k bs.length)

/-- A device's lines leave the instruction caches. -/
def State.dropLines (s : State) (v : Nat) : State :=
  { s with cores := s.cores.map (fun (e : Nat × Core) =>
      (e.1, { e.2 with icache := e.2.icache.filter (fun l => !(l.1 / 2 ^ 50 == v)),
                       icOrder := e.2.icOrder.filter (fun l => !(l.1 / 2 ^ 50 == v)) })) }

/-- An accepted launch: the counter, the tensor table (R235), the graph's first ready parcels. -/
def State.accept (s : State) (d : List Dword) (r : ImgRead) (est : Nat) : State :=
  let v := recVdev d
  let c := s.contract v
  let x : Launch :=
    { launchOf d with
      key := hdrKey r.hdr, edit := hdrEdit r.hdr, busyT := hdrBusy r.hdr, resume := hdrResume r.hdr,
      used := if hdrResume r.hdr then (dw r.ext 5).toNat else 0, est := est,
      rmode := field (NMap.get 0 c.debug 2) 47 46,
      groups := ((List.range 256).zip r.groups).foldl (fun m e => NMap.set 0 m e.1 e.2) [],
      parcels := r.parcels.map (·.1) }
  let s := s.setContract v { c with lseql := recLseq d }
  let s := s.setRange (c.slotKey 0) r.tt
  let s := s.dropLines v
  { s with launches := s.launches ++ [x.promote] }

/-- The parser takes a record (R329). A refused one changes nothing but for its refusal. -/
def State.submit (s : State) (bound : Bool) (d : List Dword) : State :=
  let v := recVdev d
  let c := s.contract v
  let n := s.recordReason bound d
  if n ≠ 0 then s.refuse d n none
  else
    match s.readImage v (dw d 1) with
    | (_, none) => s.refuse d 4 none
    | (s', some r) =>
      if !(s.imageOk v r) then s.refuse d 4 none
      else if !(s.inContract c r) then s.refuse d 5 none
      else
        match s.pathEst c r.tt (r.parcels.map (·.1)) with
        | none => s.refuse d 6 none
        | some e => if s.backlog v + e ≤ field (dw d 2) 47 0 then s'.accept d r e else s.refuse d 6 (some e)

/-- The Ethernet binding of a device names the port, one of two (R1), the source and the tag (R436). -/
def Contract.ethBound (c : Contract) (port : Nat) (mac : BitVec 48) (tag : BitVec 16) : Bool :=
  decide (port < 2) && c.ethPort.toNat == port && c.ethMac == mac.setWidth 64 && c.ethTag == tag.setWidth 64

/-- The source of a record is bound to its device. -/
def State.bound (s : State) (src : Source) (d : List Dword) : Bool :=
  match src with
  | .queue v => v == recVdev d
  | .ether port mac tag => (s.contract (recVdev d)).ethBound port mac tag

/-- A record of a device that is stopped for migration is not taken (R411): it is counted as dropped. -/
def State.offer (s : State) (bound : Bool) (d : List Dword) : State :=
  let c := s.contract (recVdev d)
  if c.v && c.stop then s.setContract (recVdev d) { c with drop := c.drop + 1 } else s.submit bound d

/-- `LAUNCH_RECORD` (R329). -/
def dueLaunchRecord (src : Source) (rec : List Dword) (s : State) : Option State :=
  if rec.length ≠ 8 then none
  else
    match src with
    | .queue v =>
      if (s.contract v).rights && !(s.contract v).stop then some (s.submit (s.bound src rec) rec)
      else none
    | .ether _ _ _ => some (s.offer (s.bound src rec) rec)

/-- `LAUNCH_RECORD`: as `dueLaunchRecord` has it; while the event is not due it does not take place, and nothing changes (assumption 14). -/
def execLaunchRecord (src : Source) (rec : List Dword) (s : State) : Res :=
  State.after s (dueLaunchRecord src rec s)

/-! ### Queues (R406 to R409) and frames (R436) -/

/-- Key of descriptor n of a device's queue table. -/
def Contract.queueKey (c : Contract) (n : Nat) : Nat := tierKey 0 (c.qtab.toNat + 16 * n)

/-- Fields of a descriptor. -/
def State.qTail (s : State) (v n : Nat) : Nat := s.rd ((s.contract v).queueKey n + 8) 2
def State.qHead (s : State) (v n : Nat) : Nat := s.rd ((s.contract v).queueKey n + 10) 2
def State.qLog (s : State) (v n : Nat) : Nat := s.rd ((s.contract v).queueKey n + 13) 1 / 16
def State.qBase (s : State) (v n : Nat) : Dword := BitVec.ofNat 64 (s.rd ((s.contract v).queueKey n) 8)

def State.countDrop (s : State) (v : Nat) : State :=
  s.setContract v { s.contract v with drop := (s.contract v).drop + 1 }

/-- Take up to so many records of a queue. One that cannot be read is counted as dropped. -/
def State.takeRecords (v n : Nat) : Nat → State → State
  | 0, s => s
  | f + 1, s =>
    let h := s.qHead v n
    if h = s.qTail v n then s
    else
      let r := s.feDwords v (plus (s.qBase v n) (64 * (h % 2 ^ s.qLog v n))) 8
      let s := match r with
        | (s, some d) => s.submit (v == recVdev d) d
        | (s, none) => s.countDrop v
      State.takeRecords v n f (s.wr ((s.contract v).queueKey n + 10) 2 ((h + 1) % 65536))

/-- Take a queue (R409): a `TAIL` further ahead than the ring holds drops the kick. -/
def State.takeQueue (s : State) (v n : Nat) : State :=
  let n' := (s.qTail v n + 65536 - s.qHead v n) % 65536
  if 2 ^ s.qLog v n < n' then (s.wr ((s.contract v).queueKey n + 10) 2 (s.qTail v n)).countDrop v
  else State.takeRecords v n n' s

/-- `KICK`: a kick page write of queue n (R406, R409). -/
def dueKick (vdev n : Nat) (tail : BitVec 16) (s : State) : Option State :=
  let c := s.contract vdev
  if !c.v || decide (32 ≤ n) then none
  else
    let s := s.wr (c.queueKey n + 8) 2 tail.toNat
    if 12 < s.qLog vdev n then some (s.countDrop vdev)
    else if c.rights && !c.stop then some (s.takeQueue vdev n)
    else some (s.setContract vdev { s.contract vdev with pending := c.pending ||| BitVec.ofNat 32 (2 ^ n) })

/-- A write of the host is still held. -/
def State.hostHeld (s : State) : Bool := s.held.any (fun h => h.lane == 32 && h.gw == dieB)

/-- A write of the host is still held, or an access of the host waits: what the host does next waits behind it, since its writes are
performed in the order in which they arrive (R378, R407). -/
def State.hostWaits (s : State) : Bool :=
  s.hostHeld || s.extQ.any (fun i => i.party == some 0)

/-- What arrives from outside takes place, or joins those that wait. -/
def State.arrive (s : State) (i : Input) (waits : Bool) (e : Option State) : Res :=
  if waits then .next { s with extQ := s.extQ ++ [i] } else State.after s e

/-- `KICK`: as `dueKick` has it, after the host's earlier writes; while the event is not due it does not take place, and nothing
changes (assumption 14). -/
def execKick (vdev n : Nat) (tail : BitVec 16) (s : State) : Res :=
  s.arrive (.kick vdev n tail) s.hostWaits (dueKick vdev n tail s)

/-- A write of a kick page as it arrives: of 4 or 8 bytes at offset 8n, n below 32, it is the kick of queue n with the `TAIL` of its
bits [15:0]; every other write is ignored (R406). -/
def kickWrite (vdev off n : Nat) (data : Dword) (s : State) : Res :=
  if (n = 4 ∨ n = 8) ∧ off % 8 = 0 ∧ off < 256 then execKick vdev (off / 8) (data.setWidth 16) s else .next s

/-- The records of a frame. -/
def frameRecords (n : Nat) (p : List Dword) : List (List Dword) :=
  (List.range n).map (fun i => (p.drop (1 + 8 * i)).take 8)

/-- `LAUNCH_FRAME` (R436): a frame with a broken header is dropped whole. -/
def execLaunchFrame (port : Nat) (mac : BitVec 48) (payload : List Dword) (s : State) : Res :=
  let h := dw payload 0
  let n := field h 39 32
  if field h 47 40 ≠ 1 ∨ n = 0 ∨ 140 < n ∨ field h 31 0 ≠ 0 ∨ payload.length ≠ 1 + 8 * n then .next s
  else
    let tag : BitVec 16 := BitVec.ofNat 16 (field h 63 48)
    .next ((frameRecords n payload).foldl (fun (s : State) d => s.offer (s.bound (.ether port mac tag) d) d) s)

/-! ### Placement and staging (R336, R337, R340) -/

/-- Place of a parcel in the ready pool: class, age of its launch, index (R340). -/
def poolRank (ref : Word) (x : Launch) (p : Parcel) : Nat :=
  (x.cls * 2 ^ 32 + (2 ^ 32 - 1 - (ref - x.lseq).toNat)) * 1024 + p.pseq

/-- First ready parcel of a device. -/
def State.poolHead (s : State) (v : Nat) : Option (Launch × Parcel) :=
  let xs := ((s.launches.filter (fun x => x.vdev == v)).map (fun x =>
    (x.parcels.filter (fun p => p.state == .ready && !(x.blocked.contains p.pseq))).map (fun p => (x, p)))).flatten
  minBy (fun (y : Launch × Parcel) => poolRank (s.contract v).lseql y.1 y.2) xs

/-- The check of a box as R307 and R336 have it, against the entry as it stands at staging: the entry, or a cause. -/
def State.boxCheck (s : State) (v : Nat) (p : Parcel) (b : List Dword) : Except Byte (List Dword) :=
  match s.live? v (boxHandle b) with
  | none => .error 0x09
  | some e =>
    if entLoc e ≠ 0 ∨ boxE0 b = 0 ∨ boxE1 b = 0 ∨ (entFmt e = 1 ∧ boxE0 b % 2 = 1) ∨
        (List.range 4).any (fun k => decide (entRank e ≤ k) && (boxCoords b).getD k 0 != 0) then .error 0x24
    else if boxDest b % 16 ≠ 0 then .error 0x0C
    else if boxDest b < p.sbase ∨ p.sbase + p.ssize < boxDest b + halfUp (boxE0 b * boxE1 b * entHalves e) then .error 0x0D
    else .ok e

/-- The job that stages box k of a parcel, under the parcel's own station mark. -/
def State.boxJob (s : State) (x : Launch) (p : Parcel) (k : Nat) (b e : List Dword) : Job :=
  let c := (p.place.getD (boxCore b) (0, 0)).1
  let c0 := (p.place.getD 0 (0, 0)).1
  let base := ((s.parcelSet p c).getD (0, 0)).1
  let cs := boxCoords b
  { id := s.nextId, tract := tractOfCore c, kind := .cpyIn, gw := 64 * c0, mask := 0, pc := 0, spc := 0, vdev := x.vdev,
    lseq := x.lseq, pseq := p.pseq, jseq := BitVec.ofNat 32 k, handle := boxHandle b, entry := e, ientry := [],
    sCore := c, sOff := boxDest b, sKey := scrKey c base (boxDest b), clo := none, e0 := boxE0 b, e1 := boxE1 b,
    c0 := (cs.getD 0 0).toInt, cs := ((cs.drop 1) ++ [0]).map (fun (w : Word) => w.toInt), coord := cs, ik := 0, idx := [], desc := [],
    state := .queued, next := 0, back := [], moved := 0, subbed := 0, fseq := 0, landed := [], sent := false,
    flits := [], box := some k }

/-- Queue the boxes of a placed parcel; the first that fails its check ends the parcel (R337). -/
def State.stageBoxes (s : State) (x : Launch) (p : Parcel) : List (Nat × List Dword) → State
  | [] => s
  | (k, b) :: bs =>
    match s.boxCheck x.vdev p b with
    | .ok e => State.stageBoxes { s with jobs := s.jobs ++ [s.boxJob x p k b e], nextId := s.nextId + 1 } x p bs
    | .error c => s.jobFault (s.boxJob x p k b []) c none

/-- Place a parcel: its quadrants, the key of their bank sets, its boxes (R172, R337, R340). -/
def State.placeParcel (s : State) (x : Launch) (p : Parcel) (at' : List (Nat × List Nat)) : State :=
  let place := at'.map (fun (y : Nat × List Nat) => (y.1, y.2.headD 0 % 4))
  let quads := ((List.range at'.length).map (fun i =>
    let qs := (at'.getD i (0, [])).2
    (List.range qs.length).map (fun j => (4 * i + j, qs.getD j 0)))).flatten
  let p := { p with state := .staging, place := place, quadsAt := quads, triggered := false, busy := [], idle := [],
                    progress := 0, imgScr := [], imgTags := [], imgAcc := [], imgFull := [], imgExt := [], imgOut := [] }
  let s := s.modParcel x.vdev x.lseq p.pseq (fun _ => p)
  let s := place.foldl (fun (s : State) (y : Nat × Nat) =>
    let c := s.core y.1
    s.setCore y.1 { c with keys := NMap.set 0 c.keys (s.setOf y.1 y.2).1 x.key }) s
  if p.resumed then s else s.stageBoxes x p ((List.range p.boxes.length).zip p.boxes)

/-- `DISPATCH_PARCEL` (R340): the device's first ready parcel, when it fits. -/
def dueDispatchParcel (vdev : Nat) (s : State) : Option State :=
  let c := s.contract vdev
  match s.poolHead vdev with
  | none => none
  | some (x, p) =>
    match s.fit vdev p true with
    | none => none
    | some at' => if c.rights && !c.stop then some (s.placeParcel x p at') else none

/-- `DISPATCH_PARCEL`: as `dueDispatchParcel` has it; while the event is not due it does not take place, and nothing changes (assumption 14). -/
def execDispatchParcel (vdev : Nat) (s : State) : Res :=
  State.after s (dueDispatchParcel vdev s)

/-! ### Start of the warps (R332, R333, R352) -/

/-- A warp as its record and its areas give it. -/
def warpOf (x : Launch) (p : Parcel) (w : WRec) (ws : List Byte) (areas : List (Nat × List Byte)) (trig : Mask) : Warp :=
  let word (k : Nat) : Word := BitVec.ofNat 32 (at' ws (4 * k) 4)
  let y : Warp :=
    { Warp.init with
      vdev := x.vdev, lseq := x.lseq, pseq := p.pseq, lq := w.lq, num := w.num, hc := w.hc, flush := w.flush,
      handler := w.handler, cspbase := w.spill, stride := w.stride, jobs := w.jobs, groups := w.groups, tmask := w.tmask,
      live := w.tmask, edit := x.edit }
  let y := (List.range 64).foldl (fun (y : Warp) k => y.setUni k (word k)) y
  let y := (List.range 16).foldl (fun (y : Warp) k => y.setJ k (word (64 + k))) y
  areas.foldl (fun (y : Warp) (a : Nat × List Byte) => y.enterArea a.1 a.2 p.resumed (hasLane trig a.1)) y

/-- Quadrant of a record. -/
def Parcel.quadOf (p : Parcel) (w : WRec) : Nat :=
  ((p.quadsAt.find? (fun y => y.1 == w.lq)).map (·.2)).getD 0

/-- One warp of a parcel, read from the image, with its quadrant's slot. -/
def State.readWarp (s : State) (x : Launch) (p : Parcel) (wext : Dword) (w : WRec) : State × Option (Nat × Warp) :=
  match s.readThreads x.vdev w with
  | (s, none) => (s, none)
  | (s, some (ws, areas)) =>
    let r : State × Option (List Dword) := if p.resumed then s.feDwords x.vdev (plus wext (8 * w.num)) 1 else (s, some [0])
    match r with
    | (s, none) => (s, none)
    | (s, some t) => (s, some (16 * p.quadOf w + w.slot, warpOf x p w ws areas (hi32 (dw t 0))))

/-- A warp takes its slot; one without threads has nothing to run. -/
def State.enterWarp (s : State) (resumed : Bool) (gw : Nat) (w : Warp) : State :=
  if w.tmask = 0 then s
  else
    let s := { s.setWarp gw w with resident := insertNat gw s.resident }
    if resumed then s.setWarp gw (w.mapThreads w.live (fun l t => { t with retired := s.countOf w l })) else s

/-- A residue container loaded back: each field reduced, bits [31:25] ignored (R90). -/
def loadRes (w : Word) : Word := (Res3.unpack w).pack

/-- `L` with its shape, as the section holds it (R352). Code `11`, which the section's layout leaves unused, stands for a side that
is none of 32, 64 and 128: no instruction can join such a block (R259), so its exact side decides nothing (assumption 18). -/
def Acc.setL (a : Acc) (n : Nat) : Acc :=
  let code (k : Nat) : Nat := if bits n (k + 1) k = 3 then 1 else 32 * 2 ^ bits n (k + 1) k
  { a with l := bits n 7 0, shM := if bits n 7 0 = 0 then 0 else code 8, shN := if bits n 7 0 = 0 then 0 else code 10,
           shG := bits n 13 12 }

/-- A tag entry as the table holds it: bits [62:48] read 0 (R201). -/
def tagFields (d : Dword) : Dword := d &&& 0x8000FFFFFFFFFFFF

/-- An accumulator image of a saved image's section (R352). -/
def accOf (b : List Byte) : Acc :=
  let words (f : Word → Word) (o : Nat) : NMap Word := (List.range 16384).foldl (fun m i =>
    NMap.set 0 m i (f (BitVec.ofNat 32 (at' b (o + 4 * i) 4)))) []
  { Acc.init.setL (at' b 131072 8) with
    el := words (fun w => w) 0, res := words loadRes 65536, cnt := BitVec.ofNat 64 (bits (at' b 131080 8) 33 0),
    var := BitVec.ofNat 32 (at' b 131088 8), nrm := BitVec.ofNat 32 (at' b 131096 8) }

/-- Parcels of a saved image that were running before this one in its sections. -/
def Launch.before (x : Launch) (p : Parcel) : List Parcel := x.parcels.filter (fun y => y.resumed && decide (y.pseq < p.pseq))

/-- Restore a resumed parcel's scratchpad, tags and accumulators from the saved image's sections; none while a section
cannot be read. -/
def State.restoreImage (s : State) (x : Launch) (p : Parcel) (ext : List Dword) : State × Option Unit :=
  let before := x.before p
  let cores := p.place.map (·.1)
  let spad := spadOf before
  let tags := tagEntsOf before
  let accs := accsOf before
  let scr (s : State) (i : Nat) : State × Option Unit :=
    let r := s.feReadAll x.vdev (plus (dw ext 0) (spad + i * p.ssize)) p.ssize
    match r.2, r.1.extentOf p (cores.getD i 0) with
    | some b, some (k, _) => (r.1.setRange k b, some ())
    | some _, none => (r.1, some ())
    | none, _ => (r.1, none)
  let tag (s : State) (i : Nat) : State × Option Unit :=
    let c := cores.getD i 0
    match s.feDwords x.vdev (plus (dw ext 2) (8 * (tags + i * p.tcount))) p.tcount with
    | (s, some ds) =>
      let y := s.core c
      (s.setCore c { y with tags := ((s.tagsOf p c).zip ds).foldl (fun m e => NMap.set 0 m e.1 (tagFields e.2)) y.tags }, some ())
    | (s, none) => (s, none)
  let qs := p.accQuads
  let acc (s : State) (i : Nat) : State × Option Unit :=
    match s.feReadAll x.vdev (plus (dw ext 1) (131136 * (accs + i))) 131136 with
    | (s, some b) =>
      let q := qs.getD i 0
      (s.setQuad q { s.quad q with work := accOf b, commit := accOf b }, some ())
    | (s, none) => (s, none)
  match State.readEach scr (List.range cores.length) s with
  | (s, none) => (s, none)
  | (s, some _) =>
    match State.readEach tag (List.range cores.length) s with
    | (s, none) => (s, none)
    | (s, some _) =>
      match State.readEach acc (List.range qs.length) s with
      | (s, none) => (s, none)
      | (s, some _) => (s, some ())

/-- A job of the job section, from the fields its record holds (Config.jobRecord): kind, warp number, lane, PC, strand,
`JSEQ`, handle, scratchpad core and offset, closure, box, coordinates, entries, descriptor, members landed, bytes
subtracted, whether its contribution has been sent (R433). Cores are counted within the parcel. -/
def State.jobOf (s : State) (x : Launch) (p : Parcel) (gwOf : Nat → Option Nat) (f : List Nat) : Option Job :=
  let n (k : Nat) : Nat := f.getD k 0
  let core (k : Nat) : Nat := (p.place.getD (n k) (0, 0)).1
  let key (c off : Nat) : Nat := scrKey c ((s.parcelSet p c).getD (0, 0)).1 off
  let ds (k m : Nat) : List Dword := (List.range m).map (fun i => BitVec.ofNat 64 (n (k + i)))
  let co (k : Nat) : Int := (BitVec.ofNat 32 (n k)).toInt
  let kind : JKind := match n 0 with
    | 0 => .cpyIn
    | 1 => .cpyOut
    | 2 => .gath
    | _ => .coll
  match gwOf (n 1) with
  | none => none
  | some gw => some
    { id := s.nextId, tract := tractOfCore (coreOfQuad (quadOfWarp gw)), kind := kind, gw := gw, mask := laneBit (n 2),
      pc := BitVec.ofNat 64 (n 3), spc := BitVec.ofNat 64 (n 4), vdev := x.vdev, lseq := x.lseq, pseq := p.pseq,
      jseq := BitVec.ofNat 32 (n 5), handle := BitVec.ofNat 32 (n 6), entry := ds 32 8, ientry := ds 40 8,
      sCore := core 7, sOff := n 8, sKey := key (core 7) (n 8),
      clo := if n 9 = 0 then none else some (core 10, n 11, key (core 10) (n 11)), e0 := n 12, e1 := n 13,
      c0 := co 16, cs := [co 17, co 18, co 19, co 20], coord := (List.range 4).map (fun k => BitVec.ofNat 32 (n (21 + k))),
      ik := key (core 14) (n 15), idx := [], desc := ds 48 8, state := .queued, next := 0,
      back := [], moved := n 26, subbed := n 25, fseq := 0,
      landed := (List.range 12).filter (fun i => (n 27).testBit i), sent := n 28 != 0,
      flits := [], box := none }

/-- Read the jobs of a parcel's warps from the job section. -/
def State.readJobs (s : State) (x : Launch) (p : Parcel) (ext : List Dword) (ws : List (Nat × Warp)) : State × Option Unit :=
  let gwOf (i : Nat) : Option Nat := (ws.find? (fun y => y.2.num == i)).map (·.1)
  let one (s : State) (i : Nat) : State × Option Unit :=
    match s.feReadAll x.vdev (plus (dw ext 3) (128 * i)) 128 with
    | (s, none) => (s, none)
    | (s, some b) =>
      match s.jobOf x p gwOf (Config.jobRecord b) with
      | some j => ({ s with jobs := mergeJobs s.jobs [j], nextId := s.nextId + 1 }, some ())
      | none => (s, some ())
  match State.readEach one (List.range (field (dw ext 4) 15 0)) s with
  | (s, none) => (s, none)
  | (s, some _) => (s, some ())

/-- Everything of a parcel's start that is read from the image: none while it cannot be read. -/
def State.readStart (s : State) (x : Launch) (p : Parcel) : State × Option (List (Nat × Warp)) :=
  match s.feDwords x.vdev x.image 8, s.feDwords x.vdev (plus x.image 64) 8 with
  | (s, some h), (_, ext) =>
    let e := ext.getD []
    match s.readWrecs x.vdev (hdrWtab h) p with
    | (s, none) => (s, none)
    | (s, some rs) =>
      match State.readEach (fun s i => s.readWarp x p (dw e 6) (rs.getD i (wrecOf 0 []))) (List.range rs.length) s with
      | (s, none) => (s, none)
      | (s, some ws) =>
        if p.resumed then
          match s.restoreImage x p e with
          | (s, none) => (s, none)
          | (s, some _) =>
            match s.readJobs x p e ws with
            | (s, none) => (s, none)
            | (s, some _) => (s, some ws)
        else (s, some ws)
  | (s, none), _ => (s, none)

/-- A quadrant as a parcel of a fresh image finds it: `SPOTCNT`, `SPOTVAR` and `SPOTNRM` are 0 (R10, R281), and with an accumulator
warp the whole image is. R245 zeroes the image only when the quadrant passes to a new tenant (assumption 49). -/
def Quad.fresh (x : Quad) (acc : Bool) : Quad :=
  let zero (a : Acc) : Acc := if acc then Acc.init else { a with cnt := 0, var := 0, nrm := 0 }
  { x with work := zero x.work, commit := zero x.commit }

/-- The parcel runs: its warps stand in their slots, and its accumulators are fresh, or as the saved image has them. Its tag entries
stay as the last parcel there left them when the image is fresh: such an image has no tag section (R201; assumption 49). -/
def State.startParcel (s : State) (x : Launch) (p : Parcel) (ws : List (Nat × Warp)) : State :=
  let s := if p.resumed then s
    else p.quadsAt.foldl (fun (s : State) q => s.setQuad q.2 ((s.quad q.2).fresh (p.accQuads.contains q.2))) s
  let s := s.modParcel x.vdev x.lseq p.pseq (fun y => { y with state := .running })
  let s := ws.foldl (fun (s : State) (y : Nat × Warp) => s.enterWarp p.resumed y.1 y.2) s
  let s := if p.resumed then
      ((s.jobs.filter (fun j => j.vdev == x.vdev && j.lseq == x.lseq && j.pseq == p.pseq)).filterMap
        (fun j => j.clo.map (·.2.2))).foldl State.cloSettle s
    else s
  s.checkTrigger x.vdev x.lseq p.pseq

/-- `STAGING_DONE` (R337): every box has landed; the warps are read from the image and start. -/
def dueStagingDone (vdev : Nat) (lseq : Word) (pseq : Nat) (s : State) : Option State :=
  match s.launch? vdev lseq, s.parcel? vdev lseq pseq with
  | some x, some p =>
    if p.state != .staging || s.jobs.any (fun j => j.vdev == vdev && j.lseq == lseq && j.pseq == pseq && j.box.isSome) then
      none
    else
      match s.readStart x p with
      | (_, none) => none
      | (s, some ws) => some (s.startParcel x p ws)
  | _, _ => none

/-- `STAGING_DONE`: as `dueStagingDone` has it; while the event is not due it does not take place, and nothing changes (assumption 14). -/
def execStagingDone (vdev : Nat) (lseq : Word) (pseq : Nat) (s : State) : Res :=
  State.after s (dueStagingDone vdev lseq pseq s)

/-! ### Completion (R337, R341, R342) -/

/-- Everything of a parcel has finished: threads, jobs, stores and held writes. -/
def State.parcelOver (s : State) (v : Nat) (l : Word) (p : Nat) : Bool :=
  (s.warpsOf v l p).isEmpty && !(s.saved.any (fun x => x.warp.ofParcel v l p)) &&
  !((s.jobs ++ s.savedJobs).any (fun j => j.vdev == v && j.lseq == l && j.pseq == p)) && !(s.flights.any (fun f => f.own == (v, l, p))) &&
  !(s.held.any (fun h => h.vdev == v && h.lseq == l && h.pseq == p && h.lane != 32))

/-- The busy table entry of a parcel (R342), in units of 64 bytes. -/
def Parcel.busyBytes (p : Parcel) : List (List Byte) :=
  (List.range 4).map (fun k => dwordBytes (((List.range 4).map (fun i =>
    let l := 4 * k + i
    [BitVec.ofNat 64 (NMap.get 0 p.busy l), BitVec.ofNat 64 (NMap.get 0 p.idle l)])).flatten))

/-- Every core the parcel ran on has passed a pass that began after its last issue there (R359). -/
def State.parcelSettles (s : State) (p : Parcel) : Bool :=
  p.state == .done && p.ranOn.all (fun e => decide (e.2 < (s.core e.1).passed))

/-- SETTLED for every parcel that may be (R359, R341). -/
def State.settleParcels (s : State) : State :=
  let ps := (s.launches.map (fun x => (x.parcels.filter s.parcelSettles).map (fun p => (x.vdev, x.lseq, p.pseq)))).flatten
  ps.foldl (fun (s : State) (y : Nat × Word × Nat) =>
    let s := s.modParcel y.1 y.2.1 y.2.2 (fun p => { p with state := .settled })
    (s.complete y.1 y.2.1 y.2.2 2 0).launchRecords y.1 y.2.1) s

/-- `PARCEL_DONE` (R337, R341, R342). Where every core has passed already, the parcel is SETTLED at once (R359). -/
def dueParcelDone (vdev : Nat) (lseq : Word) (pseq : Nat) (s : State) : Option State :=
  match s.launch? vdev lseq, s.parcel? vdev lseq pseq with
  | some x, some p =>
    if p.state != .running || !(s.parcelOver vdev lseq pseq) then none
    else
      let s := (s.feStores dieA vdev (plus x.busyT (256 * pseq)) p.busyBytes).1
      let s := s.modParcel vdev lseq pseq (fun y => { y with state := .done, place := [], quadsAt := [] })
      let s := s.complete vdev lseq pseq 1 (if x.budget < x.used then 0x31 else 0)
      some ((s.releaseDependants vdev lseq).launchRecords vdev lseq).settleParcels
  | _, _ => none

/-- `PARCEL_DONE`: as `dueParcelDone` has it; while the event is not due it does not take place, and nothing changes (assumption 14). -/
def execParcelDone (vdev : Nat) (lseq : Word) (pseq : Nat) (s : State) : Res :=
  State.after s (dueParcelDone vdev lseq pseq s)

/-! ### `OVERRUN` and `HANG` (R339, R362) -/

/-- Warps of a parcel, resident or saved. -/
def State.allWarps (s : State) (v : Nat) (l : Word) (p : Nat) : List (Nat × Warp) :=
  (s.warpsOf v l p).map (fun gw => (gw, s.warp gw)) ++
    (s.saved.filter (fun x => x.warp.ofParcel v l p)).map (fun x => (x.gw, x.warp))

/-- A record that names the lowest thread of the lowest warp in warp-table order, and then ENDED. Once every thread has exited it
names the parcel's first quadrant and no lane (R362; assumption 49). -/
def State.endWith (s : State) (v : Nat) (l : Word) (p : Nat) (cause : Byte) : State :=
  let q := (((s.parcel? v l p).map (fun y => y.quadsAt)).getD []).headD (0, 0)
  let s := match minBy (fun (y : Nat × Warp) => y.2.num) (s.allWarps v l p) with
    | none => (s.record (Rec.of cause (16 * q.2) 0 v l 0 0) false).1
    | some (gw, w) =>
      let t := lowest w.live
      (s.record { Rec.of cause gw (laneBit t) v l (w.thread t).pc (w.thread t).rpc with edit := w.edit } false).1
  s.endParcel v l p cause

/-- `OVERRUN` (R339). -/
def dueOverrun (vdev : Nat) (lseq : Word) (pseq : Nat) (s : State) : Option State :=
  match s.parcel? vdev lseq pseq with
  | some p =>
    if p.state == .running && p.wcet != 0 && decide (p.wcet < p.clocks) then some (s.endWith vdev lseq pseq 0x32)
    else none
  | none => none

/-- `OVERRUN`: as `dueOverrun` has it; while the event is not due it does not take place, and nothing changes (assumption 14). -/
def execOverrun (vdev : Nat) (lseq : Word) (pseq : Nat) (s : State) : Res :=
  State.after s (dueOverrun vdev lseq pseq s)

/-- `HANG` (R362). -/
def dueHang (vdev : Nat) (lseq : Word) (pseq : Nat) (s : State) : Option State :=
  let wdog := (s.contract vdev).wdog.toNat
  match s.parcel? vdev lseq pseq with
  | some p =>
    if p.state == .running && wdog != 0 && decide (wdog ≤ p.progress) then some (s.endWith vdev lseq pseq 0x34)
    else none
  | none => none

/-- `HANG`: as `dueHang` has it; while the event is not due it does not take place, and nothing changes (assumption 14). -/
def execHang (vdev : Nat) (lseq : Word) (pseq : Nat) (s : State) : Res :=
  State.after s (dueHang vdev lseq pseq s)

end Sys2Proof.Machine
end

