-- ==== Sys2Proof/Machine/SavedImage.lean ====
section
/-! DEFINITION. The saved image in memory (spec/18 R350, R352, with the layouts of spec/17 R330 to R333): what the front end writes to
a device's save area for a launch that has saved warps. Where the parts lie in the area, and the records of the job section, the spec
leaves to the part (assumption 18). -/

namespace Sys2Proof.Machine

/-! ### Where the parts lie -/

/-- Address of part `k` of a launch's image. -/
def Launch.partAt (x : Launch) (c : Contract) (k : Nat) : Dword := plus c.savea (64 * Config.saveOffset x.lseq.toNat k)

/-- Parts: 0 the header with the resume extension, 1 to 4 the parcel, warp, group and tensor tables, 5 to 8 the sections of
scratchpad, accumulators, tags and jobs, 9 `WEXT`, 10 `PEXT`; then two for each warp. -/
def partThreads (num : Nat) : Nat := 11 + 2 * num
def partState (num : Nat) : Nat := 12 + 2 * num

/-- Bytes cut into units of 64, structural on a bound for their number. -/
def unitsOf : Nat → List Byte → List (List Byte)
  | 0, _ => []
  | f + 1, bs => if bs = [] then [] else bs.take 64 :: unitsOf f (bs.drop 64)

/-- The front end writes one part. -/
def State.putPart (s : State) (x : Launch) (k : Nat) (bs : List Byte) : State :=
  (s.feStores dieA x.vdev (x.partAt (s.contract x.vdev) k) (unitsOf (bs.length / 64 + 1) bs)).1

/-- Words as bytes. -/
def wordBytes (ws : List Word) : List Byte := (ws.map (fun w => leBytes 4 w.toNat)).flatten

/-! ### Threads and warps (R332, R333) -/

/-- A return address as an area holds it. -/
def stackBytes (e : BitVec 55) : List Byte := leBytes 8 (canon (BitVec.ofNat 64 (4 * e.toNat))).toNat

/-- The first 128 bytes of a thread's area. -/
def Warp.areaBytes (w : Warp) (l : Nat) : List Byte :=
  let t := w.thread l
  let preds := (List.range 7).foldl (fun n k => n + (if hasLane (w.predMask k) l then 2 ^ k else 0)) 0
  leBytes 8 t.pc.toNat ++ leBytes 8 t.rpc.toNat ++ leBytes 1 preds ++ leBytes 1 t.live ++ leBytes 2 t.depth.toNat ++
  leBytes 1 t.trap.len.toNat ++ List.replicate 3 byte0 ++ ([t.e1, t.e2, t.e3, t.e4].map stackBytes).flatten ++
  leBytes 8 t.trap.pc.toNat ++
  leBytes 8 (t.trap.fseq.toNat * 2 ^ 32 + t.trap.cause.toNat * 2 ^ 24 + (if t.trap.inTrap then 2 ^ 23 else 0)) ++
  leBytes 8 t.trap.rpc.toNat ++ leBytes 8 t.trap.survM.toNat ++ leBytes 1 t.trap.survW.toNat ++ List.replicate 39 byte0

/-- The whole area of a thread: the 128 bytes and its hold registers. -/
def Warp.threadBytes (w : Warp) (l : Nat) : List Byte := w.areaBytes l ++ wordBytes ((List.range w.hc).map (w.getHold l))

/-- The areas of a warp's 32 lanes; those of lanes without a thread are not read. -/
def Warp.tstateBytes (w : Warp) : List Byte :=
  ((List.range 32).map (fun l => if hasLane w.live l then w.threadBytes l else List.replicate (128 + 4 * w.hc) byte0)).flatten

/-- Uniform registers and rejoin masks. -/
def Warp.wstateBytes (w : Warp) : List Byte :=
  wordBytes ((List.range 64).map w.getUni ++ (List.range 16).map w.getJ)

/-- A warp's record for its saved state, from the record that the launch's table holds. -/
def Warp.savedRecord (w : Warp) (d : List Dword) (tstate wstate : Dword) : List Dword :=
  [BitVec.ofNat 64 (w.live.toNat * 2 ^ 32 + field (dw d 0) 31 0), dw d 1, w.cspbase,
   BitVec.ofNat 64 (w.stride.toNat * 2 ^ 32 + w.jobs.toNat), dw d 4, tstate, wstate, 0]

/-- The saved warp of a launch with a number. -/
def State.savedNum (s : State) (x : Launch) (num : Nat) : Option Warp :=
  (s.saved.find? (fun y => y.warp.vdev == x.vdev && y.warp.lseq == x.lseq && y.warp.num == num)).map (·.warp)

/-- A warp of a running parcel that neither stands nor is saved: every thread of it has exited. -/
def State.numGone (s : State) (x : Launch) (num : Nat) : Bool :=
  x.parcels.any (fun p => p.state == .running && decide (p.wfirst ≤ num) && decide (num < p.wfirst + p.nwp)) &&
    (s.savedNum x num).isNone &&
    !(s.resident.any (fun gw => (s.warp gw).vdev == x.vdev && (s.warp gw).lseq == x.lseq && (s.warp gw).num == num))

/-- Record `num` of the saved image's warp table. -/
def State.recordFor (s : State) (x : Launch) (num : Nat) (d : List Dword) : List Dword :=
  let c := s.contract x.vdev
  match s.savedNum x num with
  | some w => w.savedRecord d (x.partAt c (partThreads num)) (x.partAt c (partState num))
  | none => if s.numGone x num then BitVec.ofNat 64 (field (dw d 0) 31 0) :: d.drop 1 else d

/-! ### Sections (R352) -/

/-- Running parcels, in `PSEQ` order. -/
def Launch.runningParcels (x : Launch) : List Parcel := x.parcels.filter (fun p => p.state == .running)

/-- Parcels that the saved image has as running: those that run, and those that a saved image brought and that have not started
since, whose state that image holds still. -/
def Launch.sectionParcels (x : Launch) : List Parcel := x.parcels.filter (fun p => p.state == .running || p.unresumed)

/-- The resume extension of the image that the launch came from. -/
def State.oldExt (s : State) (x : Launch) : List Dword := (s.feDwords x.vdev (plus x.image 64) 8).2.getD []

/-- Bytes of a section of the image that the launch came from. -/
def State.oldBytes (s : State) (x : Launch) (k off n : Nat) : List Byte :=
  (s.feReadAll x.vdev (plus (dw (s.oldExt x) k) off) n).2.getD (List.replicate n byte0)

/-- Whether warp record `i` is of a parcel whose state only the image that the launch came from holds. -/
def Launch.oldWarp (x : Launch) (i : Nat) : Bool :=
  x.parcels.any (fun p => p.unresumed && decide (p.wfirst ≤ i) && decide (i < p.wfirst + p.nwp))

/-- Job records of such parcels in the image that the launch came from: they stay as they are. -/
def State.oldJobs (s : State) (x : Launch) : List (List Byte) :=
  if x.parcels.any (·.unresumed) then
    ((List.range (field (dw (s.oldExt x) 4) 15 0)).map (fun i => s.oldBytes x 3 (128 * i) 128)).filter (fun b =>
      x.oldWarp ((Config.jobRecord b).getD 1 0))
  else []

/-- The parcel's state on a core stands in place still: it is not saved, or the image takes it whole and has not taken it yet. -/
def State.inPlace (s : State) (x : Launch) (p : Parcel) (core : Nat) : Bool :=
  !(s.coreSaved x.vdev x.lseq p.pseq core) || p.imgExt.contains core || p.imgFull.any (fun q => coreOfQuad q == core)

/-- Scratchpad bytes of a parcel on one core. -/
def State.spadBytes (s : State) (x : Launch) (p : Parcel) (core : Nat) : List Byte :=
  match s.extentOf p core with
  | none => List.replicate p.ssize byte0
  | some (k, n) => if s.inPlace x p core then s.bytes k n else (List.range n).map (fun i => NMap.get byte0 p.imgScr (k + i))

/-- Tag entries of a parcel on one core. -/
def State.tagSection (s : State) (x : Launch) (p : Parcel) (core : Nat) : List Dword :=
  (s.tagsOf p core).map (fun e =>
    if s.inPlace x p core then NMap.get 0 (s.core core).tags e else NMap.get 0 p.imgTags (256 * core + e))

/-- A side of an open block's shape, as two bits; `11` for a side that is none of 32, 64 and 128, as `ACLD.rns` may leave it (R259,
assumption 18). -/
def shapeCode (n : Nat) : Nat := if n = 32 then 0 else if n = 64 then 1 else if n = 128 then 2 else 3

/-- An accumulator's part of its section. -/
def Acc.sectionBytes (a : Acc) : List Byte :=
  let l := if a.l = 0 then 0 else a.l + 256 * shapeCode a.shM + 1024 * shapeCode a.shN + 4096 * a.shG
  wordBytes ((List.range 16384).map (NMap.get 0 a.el) ++ (List.range 16384).map (NMap.get 0 a.res)) ++
  dwordBytes [BitVec.ofNat 64 l, a.cnt, zx a.var, zx a.nrm] ++ List.replicate 32 byte0

/-- The accumulator of a quadrant of a parcel. -/
def State.accFor (s : State) (x : Launch) (p : Parcel) (q : Nat) : Acc :=
  if !(s.coreSaved x.vdev x.lseq p.pseq (coreOfQuad q)) || p.imgFull.contains q then s.committed q
  else NMap.get Acc.init p.imgAcc q

/-- Number of the warp that stood in a slot, by the records of the launch's warp table. -/
def Launch.numAt (x : Launch) (d : List Dword) (gw : Nat) : Nat :=
  ((x.runningParcels.map (fun p => ((List.range p.nwp).map (· + p.wfirst)).filter (fun i =>
    let w := wrecOf i ((d.drop (8 * i)).take 8)
    p.quadsAt.any (fun y => y.1 == w.lq) && 16 * p.quadOf w + w.slot == gw))).flatten).headD 65535

/-- Fields of a saved job, in the order in which `State.jobOf` takes them. Cores are counted within the parcel. -/
def State.jobFields (s : State) (x : Launch) (d : List Dword) (j : Job) : List Nat :=
  let p := x.parcels.find? (fun p => p.pseq == j.pseq)
  let place := (p.map (·.place)).getD []
  let core (c : Nat) : Nat := ((List.range place.length).find? (fun i => (place.getD i (0, 0)).1 == c)).getD 0
  let kind := match j.kind with
    | .cpyIn => 0
    | .cpyOut => 1
    | .gath => 2
    | .coll => 3
  let ikCore := (j.ik - scrKey 0 0 0) / 2 ^ 23
  let ikOff := j.ik - scrKey ikCore ((p.bind (fun p => s.parcelSet p ikCore)).getD (0, 0)).1 0
  let k := j.clo.getD (0, 0, 0)
  let two (n : Int) : Nat := (BitVec.ofInt 32 n).toNat
  let pad (m : Nat) (xs : List Nat) : List Nat := (List.range m).map (fun i => xs.getD i 0)
  [kind, x.numAt d j.gw, lowest j.mask, j.pc.toNat, j.spc.toNat, j.jseq.toNat, j.handle.toNat, core j.sCore, j.sOff,
   if j.clo.isSome then 1 else 0, core k.1, k.2.1, j.e0, j.e1, core ikCore, ikOff, two j.c0] ++
  pad 4 (j.cs.map two) ++ pad 4 (j.coord.map (·.toNat)) ++ [j.subbed, j.moved, j.landed.foldl (fun n i => n + 2 ^ i) 0] ++
  pad 4 [b2n j.sent] ++ pad 8 (j.entry.map (·.toNat)) ++ pad 8 (j.ientry.map (·.toNat)) ++ pad 8 (j.desc.map (·.toNat))

/-- Saved jobs of a launch, in queue order. -/
def State.jobsOf (s : State) (x : Launch) : List Job := s.savedJobs.filter (fun j => j.vdev == x.vdev && j.lseq == x.lseq)

/-- `PEXT` of a parcel. One that has ended, or can never run, is not to run again (assumption 18). -/
def Parcel.pext (p : Parcel) (blocked : List Nat) : Dword :=
  let code := if blocked.contains p.pseq then 3 else
    match p.state with
    | .waiting => 0
    | .ready | .staging => if p.resumed then 2 else 1
    | .running => 2
    | _ => 3
  BitVec.ofNat 64 (p.clocks % 2 ^ 48 * 65536 + code)

/-- The resume extension. -/
def State.extDwords (s : State) (x : Launch) : List Dword :=
  let c := s.contract x.vdev
  [x.partAt c 5, x.partAt c 6, x.partAt c 7, x.partAt c 8, BitVec.ofNat 64 ((s.oldJobs x).length + (s.jobsOf x).length),
   BitVec.ofNat 64 x.used, x.partAt c 9, x.partAt c 10]

/-- The header: the launch's own, with the tables of the saved image, `RESUME` 1, and the edited flag (R330). -/
def State.hdrDwords (s : State) (x : Launch) (h : List Dword) : List Dword :=
  let c := s.contract x.vdev
  [dw h 0, x.partAt c 1, x.partAt c 2, x.partAt c 3, x.partAt c 4, dw h 5, if x.edit then 3 else 1, 0]

/-! ### Writing -/

/-- Copy and rebuild the tables: parcels as the image has them, warps with the saved state, the group table, the tensor table as it
stands. -/
def State.putTables (s : State) (x : Launch) (h : List Dword) : State :=
  let v := x.vdev
  let s := match s.feReadAll v (hdrPtab h) (352 * hdrNparc h) with
    | (s, some bs) => s.putPart x 1 bs
    | (s, none) => s
  let s := match s.feDwords v (hdrWtab h) (8 * hdrNwarp h) with
    | (s, some d) => s.putPart x 2 (dwordBytes (((List.range (hdrNwarp h)).map (fun i =>
        s.recordFor x i ((d.drop (8 * i)).take 8))).flatten))
    | (s, none) => s
  let s := s.putPart x 3 (dwordBytes ((List.range 256).map (NMap.get 0 x.groups)))
  s.putPart x 4 (s.bytes ((s.contract v).slotKey 0) 262144)

/-- Write the sections and the states of the saved warps. -/
def State.putSections (s : State) (x : Launch) (nwarp : Nat) (d : List Dword) : State :=
  let ps := x.sectionParcels
  let part (k size : Nat) (off : List Parcel → Nat) (live : Parcel → List Byte) : List Byte :=
    (ps.map (fun p => if p.unresumed then s.oldBytes x k (size * off (x.before p)) (size * off [p]) else live p)).flatten
  let spad := part 0 1 spadOf (fun p => ((p.place.map (·.1)).map (s.spadBytes x p)).flatten)
  let accs := part 1 131136 accsOf (fun p => (p.accQuads.map (fun q => (s.accFor x p q).sectionBytes)).flatten)
  let tags := part 2 8 tagEntsOf (fun p => dwordBytes ((p.place.map (·.1)).map (s.tagSection x p)).flatten)
  let jobs := (s.oldJobs x ++ (s.jobsOf x).map (fun j =>
    (Config.jobBytes (s.jobFields x d j) ++ List.replicate 128 byte0).take 128)).flatten
  let trig (i : Nat) : Nat := match s.savedNum x i with
    | some w => (maskOf (fun l => hasLane w.live l && (w.thread l).trig)).toNat * 2 ^ 32
    | none => if x.oldWarp i then leNat (s.oldBytes x 6 (8 * i) 8) else 0
  let s := (((s.putPart x 5 spad).putPart x 6 accs).putPart x 7 tags).putPart x 8 jobs
  let s := s.putPart x 9 (dwordBytes ((List.range nwarp).map (fun i => BitVec.ofNat 64 (trig i))))
  let s := s.putPart x 10 (dwordBytes (x.parcels.map (fun p => p.pext x.blocked)))
  (s.saved.filter (fun y => y.warp.vdev == x.vdev && y.warp.lseq == x.lseq)).foldl (fun (s : State) y =>
    (s.putPart x (partThreads y.warp.num) y.warp.tstateBytes).putPart x (partState y.warp.num) y.warp.wstateBytes) s

/-- The front end writes a launch's saved image to its device's save area (R352). -/
def State.writeImage (s : State) (x : Launch) : State :=
  match s.feDwords x.vdev x.image 8 with
  | (s, none) => s
  | (s, some h) =>
    let s := s.putTables x h
    let s := match s.feDwords x.vdev (hdrWtab h) (8 * hdrNwarp h) with
      | (s, some d) => s.putSections x (hdrNwarp h) d
      | (s, none) => s
    s.putPart x 0 (dwordBytes (s.hdrDwords x h ++ s.extDwords x))

/-- What an image takes from the places where parcels still stand is met first (R357). -/
def State.meetImage (s : State) (x : Launch) : State :=
  if s.badW.isEmpty then s
  else ((x.runningParcels.map (fun p => (p.place.filter (fun y => s.inPlace x p y.1)).map (fun y => (y.1, p.pseq)))).flatten).foldl
    (fun (s : State) y => s.meetPlace y.1 x.vdev x.lseq y.2) s

/-- The launch has saved warps. -/
def State.hasSaved (s : State) (x : Launch) : Bool :=
  s.saved.any (fun y => y.warp.vdev == x.vdev && y.warp.lseq == x.lseq) || !(s.jobsOf x).isEmpty

/-- Images whose contents have changed are written, those of launches with something saved. -/
def State.writeImages (s : State) : State :=
  (s.launches.filter (fun x => x.stale)).foldl (fun (s : State) x =>
    let s := if s.hasSaved x then
        let s := s.meetImage x
        s.writeImage ((s.launch? x.vdev x.lseq).getD x)
      else s
    s.modLaunch x.vdev x.lseq (fun y => { y with stale := false })) s

end Sys2Proof.Machine
end

