-- ==== Sys2Proof/Machine/Preempt.lean ====
section
/-! DEFINITION. Pre-emption and resurvey (spec/18 R343 to R360, R363): requests, entry to the pre-emption handler, forced
saves, the drain of a core and the end of its pass, and the events `SLICE_END`, `SLICE_START`, `PREEMPT_HANDLER_ENTRY`,
`FORCED_SAVE`, `RESURVEY_START`, `RESURVEY_SCAN_END`. -/

namespace Sys2Proof.Machine

/-! ### Requests (R343, R363) -/

/-- A request on a quadrant. With one of the same device there already, the budget runs from the earlier (R363). A slice
end or a drain stops the sampler (R421). Where no warp of the device stands, what it leaves there is saved at once. -/
def State.request (s : State) (q : Nat) (kind : ReqKind) (v budget : Nat) : State :=
  let x := s.quad q
  let ends := x.clock + budget
  let r : PreReq := match x.req with
    | some r => if r.vdev = v then { r with kind := kind, ends := min r.ends ends } else { kind := kind, vdev := v, ends := ends }
    | none => { kind := kind, vdev := v, ends := ends }
  (s.setQuad q { x with req := some r, sampler := if kind = .stop then x.sampler else x.sampler.stop }).saveLoose q v

/-- Quadrants that a device owns. -/
def State.quadsOf (s : State) (v : Nat) : List Nat :=
  ((s.knownCores.map (fun c => [0, 1, 2, 3].map (fun k => 4 * c + k))).flatten).filter (s.owns v)

/-- Requests of a device on its quadrants that no drain keeps are over. -/
def State.clearReqs (s : State) (v : Nat) : State :=
  (s.quadsOf v).foldl (fun (s : State) q =>
    let x := s.quad q
    match x.req with
    | some r => if r.vdev = v ∧ (s.core (coreOfQuad q)).survey = .none then s.setQuad q { x with req := none } else s
    | none => s) s

/-- Parcels that are staging go back to ready, and are staged again later (R352). -/
def State.unstage (s : State) (which : Launch → Parcel → Bool) : State :=
  let hit (x : Launch) (p : Parcel) : Bool := p.state == .staging && which x p
  let gone (j : Job) : Bool := j.box.isSome && s.launches.any (fun x => x.vdev == j.vdev && x.lseq == j.lseq &&
    x.parcels.any (fun p => p.pseq == j.pseq && hit x p))
  { s with jobs := s.jobs.filter (fun j => !(gone j)),
           launches := s.launches.map (fun x => { x with parcels := x.parcels.map (fun p =>
             if hit x p then { p with state := .ready, place := [], quadsAt := [] } else p) }) }

/-- `SLICE_END` (R343). -/
def dueSliceEnd (vdev : Nat) (s : State) : Option State :=
  let c := s.contract vdev
  if !c.v || !c.rights || c.slice == 0 then none
  else
    let s := s.setContract vdev { c with rights := false }
    let s := (s.quadsOf vdev).foldl (fun (s : State) q => s.request q .slice vdev c.pbud.toNat) s
    some (s.unstage (fun x _ => x.vdev == vdev))

/-- `SLICE_END`: as `dueSliceEnd` has it; while the event is not due it does not take place, and nothing changes (assumption 14). -/
def execSliceEnd (vdev : Nat) (s : State) : Res :=
  State.after s (dueSliceEnd vdev s)

/-- Take the queues at the start of a slice (R409): pending ones first, each bit cleared as it is taken, then the others
with records waiting. -/
def State.takePending (s : State) (v : Nat) : State :=
  let s := (List.range 32).foldl (fun (s : State) n =>
    let c := s.contract v
    if c.pending.getLsbD n then
      (s.setContract v { c with pending := c.pending &&& ~~~ (BitVec.ofNat 32 (2 ^ n)) }).takeQueue v n
    else s) s
  (List.range 32).foldl (fun (s : State) n =>
    if s.qLog v n ≤ 12 ∧ s.qHead v n ≠ s.qTail v n then s.takeQueue v n else s) s

/-- A warp of the device still stands somewhere under a request. -/
def State.leaving (s : State) (v : Nat) : Bool :=
  s.resident.any (fun gw => (s.warp gw).vdev == v && (match (s.quad (quadOfWarp gw)).req with
    | some r => r.vdev == v
    | none => false))

/-- A device has issue rights from now on (R352, R409). -/
def State.beginSlice (s : State) (v : Nat) : State :=
  let s := (s.setContract v { s.contract v with rights := true }).clearReqs v
  (s.resumeWhere (fun x => x.warp.vdev == v)).takePending v

/-- `SLICE_START` (R352, R409): once the device has left its quadrants, it has issue rights again, its saved warps resume
and its queues are taken. -/
def dueSliceStart (vdev : Nat) (s : State) : Option State :=
  let c := s.contract vdev
  if !c.v || c.rights || c.stop || s.leaving vdev then none else some (s.beginSlice vdev)

/-- `SLICE_START`: as `dueSliceStart` has it; while the event is not due it does not take place, and nothing changes (assumption 14). -/
def execSliceStart (vdev : Nat) (s : State) : Res :=
  State.after s (dueSliceStart vdev s)

/-! ### Handler entry (R344, R345) -/

/-- Every non-exited thread is held (R344). -/
def State.fullyHeld (s : State) (gw : Nat) : Bool := (laneList (s.warp gw).live).all (fun l => s.heldThread gw l)

/-- A register result of the warp is still on its way. -/
def State.resultsOut (s : State) (gw : Nat) (m : Mask) : Bool :=
  s.flights.any (fun f => f.gw == gw && (f.mask &&& m) != 0 && !f.writes.isEmpty)

/-- A thread's PC becomes its resume PC and its restart PC (R345 item 1); what it has done before is committed. -/
def Thread.atResume (t : Thread) : Thread :=
  { t with resume := t.pc, rpc := t.pc, retired := t.retired + t.since, since := 0 }

/-- Items 1 and 2 of R345: the run-ahead set is closed, resume PCs stand, a warp-wide strand commits, since each of its threads
stands at its end. -/
def State.holdWarp (s : State) (gw : Nat) : State :=
  let s := s.endRun gw
  let s := s.endWide gw (s.warp gw).live
  let w := s.warp gw
  s.setWarp gw { w.mapThreads w.live (fun _ t => t.atResume) with wides := [] }

/-- Items 3 and 4: every thread stands at the handler, no longer waiting or parked; its restart PC stays its resume PC until the
handler's header issues (R41). -/
def State.enterPre (s : State) (gw : Nat) (handler : Dword) : State :=
  let w := s.warp gw
  let all : Mask := BitVec.allOnes 32
  let w := w.mapThreads w.live (fun _ t =>
    { t with pc := handler, needHdr := true, again := false, stat := .ready, survW := 0, survM := 0 })
  s.setWarp gw { (w.loseLatches all).loseNear all with inPre := true, savHold := [] }

/-- `PREEMPT_HANDLER_ENTRY` (R345): a fully held warp enters the handler, or is saved when there is none or the debugger
halts it (R417). One that stands at the end of a gang's strand first says so, and waits for the other members. -/
def duePreemptHandlerEntry (gw : Nat) (s : State) : Option State :=
  let w := s.warp gw
  if !(s.resident.contains gw) || !(s.asked gw) || !(s.fullyHeld gw) || s.resultsOut gw w.live then
    none
  else if s.gangOpen gw then
    if w.gangEnd then none else some (s.setWarp gw { w with gangEnd := true })
  else
    let s := s.holdWarp gw
    let h := (s.contract w.vdev).phndl
    if !w.halts.isEmpty || h == 0 then some (s.saveWarp gw true) else some (s.enterPre gw h)

/-- `PREEMPT_HANDLER_ENTRY`: as `duePreemptHandlerEntry` has it; while the event is not due it does not take place, and nothing changes (assumption 14). -/
def execPreemptHandlerEntry (gw : Nat) (s : State) : Res :=
  State.after s (duePreemptHandlerEntry gw s)

/-- `FORCED_SAVE` (R350): the budget has run out. Results of threads at a boundary land first. -/
def dueForcedSave (gw : Nat) (s : State) : Option State :=
  let w := s.warp gw
  let x := s.quad (quadOfWarp gw)
  let due : Bool := match x.req with
    | some r => r.vdev == w.vdev && decide (r.ends ≤ x.clock)
    | none => false
  if !(s.resident.contains gw) || !due || (!w.inPre && s.resultsOut gw (w.live &&& ~~~ w.offBoundary)) then
    none
  else some (s.saveWarp gw true)

/-- `FORCED_SAVE`: as `dueForcedSave` has it; while the event is not due it does not take place, and nothing changes (assumption 14). -/
def execForcedSave (gw : Nat) (s : State) : Res :=
  State.after s (dueForcedSave gw s)

/-! ### Resurvey (R358 to R360) -/

/-- Passes begun on a die; the next is due every 5,000,000 policy-core clocks, and takes the die's cores in rotation. -/
def State.passDue (s : State) (die : Nat) : Bool := decide (5000000 * (NMap.get 0 s.rotate die + 1) ≤ s.pclk)

/-- Quadrants of a core that hold warps. -/
def State.fullQuads (s : State) (core : Nat) : List Nat :=
  [0, 1, 2, 3].filterMap (fun k =>
    if s.resident.any (fun gw => quadOfWarp gw == 4 * core + k) then some (4 * core + k) else none)

/-- The device whose warps stand on a quadrant. -/
def State.tenantOf (s : State) (q : Nat) : Nat :=
  match s.resident.find? (fun gw => quadOfWarp gw == q) with
  | some gw => (s.warp gw).vdev
  | none => 0xFFFF

/-- What stands in the quadrants of a core that hold no warp is saved at the start of its drain, and their samplers stop as the others
do (R319, R350, R421). -/
def State.saveLooseCore (s : State) (core : Nat) : State :=
  ([0, 1, 2, 3].map (fun k => 4 * core + k)).foldl (fun (s : State) q =>
    if (s.fullQuads core).contains q then s
    else (s.setQuad q { s.quad q with sampler := (s.quad q).sampler.stop }).saveLoose q (s.owner q).toNat) s

/-- `RESURVEY_START` (R343, R358): the die's next core is drained; one that has left service is passed over. -/
def dueResurveyStart (die : Nat) (s : State) : Option State :=
  let n := NMap.get 0 s.rotate die
  let core := 48 * die + n % 48
  let x := s.core core
  if !(s.passDue die) || decide (8 ≤ die) || x.survey != .none then none
  else
    let s := { s with rotate := NMap.set 0 s.rotate die (n + 1) }
    if !x.service then some s
    else
      let s := (s.setCore core { x with survey := .draining, begun := x.begun + 1, scanLeft := 1700000 }).markExtents core
      let s := s.saveLooseCore core
      let s := (s.fullQuads core).foldl (fun (s : State) q =>
        s.request q .drain (s.tenantOf q) (s.contract (s.tenantOf q)).pbud.toNat) s
      some (s.unstage (fun _ p => p.place.any (fun y => y.1 == core)))

/-- `RESURVEY_START`: as `dueResurveyStart` has it; while the event is not due it does not take place, and nothing changes (assumption 14). -/
def execResurveyStart (die : Nat) (s : State) : Res :=
  State.after s (dueResurveyStart die s)

/-- The drain of a core is complete: no warp stands on it, and no job of its warps still runs (R344, R358). -/
def State.drained (s : State) (core : Nat) : Bool :=
  (s.fullQuads core).isEmpty &&
  !(s.jobs.any (fun j => j.state != .queued && coreOfQuad (quadOfWarp j.gw) == core))

/-- One clock of the cores' nominal rate: the scan patterns run on in the cores whose drain is complete (R358). -/
def State.scanClock (s : State) : State :=
  (s.cores.filter (fun c => c.2.survey == .draining && decide (0 < c.2.scanLeft))).foldl (fun (s : State) c =>
    if s.drained c.1 then s.setCore c.1 { s.core c.1 with scanLeft := (s.core c.1).scanLeft - 1 } else s) s

/-- A core's SRAM and units are zeroed (R358), the instruction cache among it: what is there no longer has bad parity. -/
def State.zeroCore (s : State) (core : Nat) : State :=
  let k := scrKey core 0 0
  let s := s.zero k (2 ^ 23)
  let s := s.setCore core { s.core core with tags := [], icache := [], icOrder := [] }
  let s := [0, 1, 2, 3].foldl (fun (s : State) i =>
    let q := 4 * core + i
    s.setQuad q { s.quad q with work := Acc.init, commit := Acc.init, req := none }) s
  let inside (w : Nat) : Bool := (decide (k ≤ 4 * w) && decide (4 * w < k + 2 ^ 23)) ||
    (decide (tagWord core 0 ≤ w) && decide (w < tagWord core 256)) || (decide (holdWord (64 * core) 0 ≤ w) && decide (w < holdWord (64 * core + 64) 0))
  { s with badW := s.badW.filter (fun w => !(inside w)) }

/-- A parcel that ran on the core since its last passing pass, and is not SETTLED (R360). -/
def Parcel.suspect (p : Parcel) (core passed : Nat) : Bool :=
  p.state != .settled && p.state != .ended &&
  (match p.ranOn.find? (fun e => e.1 == core) with
   | some e => decide (passed ≤ e.2)
   | none => false)

/-- The record of a failed pass for one launch (R360). -/
def failRec (core : Nat) (v : Nat) (l : Word) (ps : List Nat) : Rec :=
  let n := min ps.length 16
  let tail := (List.range 4).map (fun k => BitVec.ofNat 64 ((List.range 4).foldl (fun a i =>
    a + (if 4 * k + i < n then ps.getD (4 * k + i) 0 else 0) * 2 ^ (16 * i)) 0))
  let r := Rec.of 0x33 (64 * core) 0 v l 0 0
  { r with ovr := decide (16 < ps.length), prov := true, tail := some tail, d3 := some (BitVec.ofNat 64 n) }

/-- One suspect parcel (R360): ENDED in place of SETTLED, or a kill. Its next run does not wait for a pass of the core, which has left
service. -/
def State.suspectParcel (s : State) (core : Nat) (v : Nat) (l : Word) (p : Parcel) : State :=
  if p.state == .done then
    let s := s.modParcel v l p.pseq (fun y => { y with state := .settled, cause := 0x33 })
    (s.complete v l p.pseq 4 0x33).launchRecords v l
  else (s.killParcel (64 * core) v l p.pseq 0x33).modParcel v l p.pseq (fun y =>
    { y with ranOn := y.ranOn.filter (fun e => e.1 != core) })

/-- The pass has failed: the core leaves service, and suspect parcels are dealt with launch by launch (R360). -/
def State.failCore (s : State) (core : Nat) : State :=
  let passed := (s.core core).passed
  let s := s.setCore core { s.core core with survey := .none, service := false }
  s.launches.foldl (fun (s : State) (x : Launch) =>
    let ps := x.parcels.filter (fun p => p.suspect core passed)
    if ps.isEmpty then s
    else
      let s := (s.record (failRec core x.vdev x.lseq (ps.map (·.pseq))) false).1
      ps.foldl (fun (s : State) p => s.suspectParcel core x.vdev x.lseq p) s) s

/-- The pass has passed: the core is in service again, its saved warps resume, and parcels settle (R358, R359). -/
def State.passCore (s : State) (core : Nat) : State :=
  let x := s.core core
  let s := s.setCore core { x with survey := .none, passed := x.begun }
  (s.resumeCore core).settleParcels

/-- `RESURVEY_SCAN_END` (R358 to R360): the drain is complete, the core has been zeroed, and the scan patterns have
run. -/
def dueResurveyScanEnd (core : Nat) (pass : Bool) (s : State) : Option State :=
  if (s.core core).survey != .draining || !(s.drained core) || (s.core core).scanLeft != 0 then none
  else
    let s := (s.captureCore core).zeroCore core
    some (if pass then s.passCore core else s.failCore core)

/-- `RESURVEY_SCAN_END`: as `dueResurveyScanEnd` has it; while the event is not due it does not take place, and nothing changes (assumption 14). -/
def execResurveyScanEnd (core : Nat) (pass : Bool) (s : State) : Res :=
  State.after s (dueResurveyScanEnd core pass s)

end Sys2Proof.Machine
end

