-- ==== Sys2Proof/Machine/Tiers.lean ====
section
/-! DEFINITION. Memory tiers (spec/20): page service (R220), invalidation and migration of pages (R387 to R389), freed frames
(R390), replat (R391 to R400), and the parity walk (R357), with their events. -/

namespace Sys2Proof.Machine

/-! ### Leaves (R383, R387) -/

/-- Address of the entry that maps a page, in the tables as they stand, and whether it is a level-2 entry: a level-3 entry under a
table, else the level-2 entry; none where the level-1 entry names no table. -/
def State.leafSlot (s : State) (vdev : Nat) (va : Dword) : Option (Nat × Bool) :=
  let c := s.contract vdev
  match s.readPte (c.ptroot.toNat + 8 * field va 56 41) with
  | .error _ => none
  | .ok e1 =>
    if !(pteTableOk e1 524288) then none
    else
      let a2 := pteAddr e1 + 8 * field va 40 25
      match s.readPte a2 with
      | .error _ => some (a2, true)
      | .ok e2 => if pteLeaf e2 then some (a2, true) else some (pteAddr e2 + 8 * field va 24 16, false)

/-- Larkar stores a leaf, in one 8-byte store. -/
def State.writeLeaf (s : State) (vdev : Nat) (va e : Dword) : State :=
  match s.leafSlot vdev va with
  | some (a, _) => s.wr (tierKey 0 a) 8 e.toNat
  | none => s

/-- No die holds an entry of the page any more; with `big`, of the 32 MiB around it. -/
def State.dropTlb (s : State) (vdev : Nat) (va : Dword) (big : Bool) : State :=
  { s with tlbs := s.tlbs.filter (fun t => !(t.vdev == vdev &&
      (if t.big then t.page == field va 56 25 else if big then t.page / 512 == field va 56 25 else t.page == field va 56 16))) }

/-- No die holds an entry any more that lies under a level-1 or level-2 entry on an address's path (R387). -/
def State.dropUnder (s : State) (vdev : Nat) (va : Dword) (level : Nat) : State :=
  if level = 2 then s.dropTlb vdev va true
  else { s with tlbs := s.tlbs.filter (fun t => !(t.vdev == vdev && (if t.big then t.page / 65536 else t.page / 33554432) == field va 56 41)) }

/-- Address of the level-1 or level-2 entry on an address's path, in the tables as they stand. -/
def State.tableSlot (s : State) (vdev : Nat) (va : Dword) (top : Bool) : Option Nat :=
  let a1 := (s.contract vdev).ptroot.toNat + 8 * field va 56 41
  if top then some a1
  else
    match s.readPte a1 with
    | .ok e1 => if pteTableOk e1 524288 then some (pteAddr e1 + 8 * field va 40 25) else none
    | .error _ => none

/-- What a walk gives before a change of a page, which stays in force until the invalidation completes (R387). -/
def State.invalOf (s : State) (vdev : Nat) (va : Dword) : Inval :=
  let big := ((s.leafSlot vdev va).map (·.2)).getD false
  match s.walk vdev va with
  | .ok (e, b, _) => { vdev := vdev, page := pageOf va.toNat, big := big, old := some (e, b), cause := 0, table := none }
  | .error c => { vdev := vdev, page := pageOf va.toNat, big := big, old := none, cause := c, table := none }

/-! ### Held writes replay (R389, R399) -/

/-- An issuing warp still stands, in a slot or saved. -/
def State.stands (s : State) (gw vdev : Nat) (l : Word) (p : Nat) : Bool :=
  (s.resident.contains gw && (s.warp gw).ofParcel vdev l p) || s.saved.any (fun x => x.gw == gw && x.warp.ofParcel vdev l p)

/-- The record of a held write, under the station mark of its store or atomic. -/
def State.heldRec (s : State) (h : Held) (cause : Byte) (pages : List Dword) : Rec :=
  let w := s.warp h.gw
  { Rec.of cause h.gw (laneBit h.lane) h.vdev h.lseq h.pc h.spc with
    pages := pages, gexit := !(s.stands h.gw h.vdev h.lseq h.pseq), edit := w.ofParcel h.vdev h.lseq h.pseq && w.edit }

/-- Memory samples of operations that wait on a held write count its replay (R420). -/
def Flight.replayed (f : Flight) (id : Nat) : Flight :=
  if f.behind.contains id then { f with sample := f.sample.map (fun x => { x with rpl := min 15 (x.rpl + 1) }) } else f

/-- The mark of a saved thread whose last earlier access was a held write takes effect in its image (R305). -/
def State.settleSaved (s : State) (h : Held) : State :=
  let due (w : Warp) : Bool :=
    match (w.thread h.lane).trigAt with
    | some n => h.isOf w h.lane && !(w.thread h.lane).trig && !(s.heldBelow w h.lane n)
    | none => false
  if s.saved.any (fun (x : Saved) => due x.warp) then
    let s := { s with saved := s.saved.map (fun (x : Saved) =>
      if due x.warp then { x with warp := x.warp.setThread h.lane { x.warp.thread h.lane with trig := true } } else x) }
    (s.stain h.vdev h.lseq).checkTrigger h.vdev h.lseq h.pseq
  else s

/-- A held write is performed: it leaves the list; an atomic's old value goes to the operation that waits for it. -/
def State.heldDone (s : State) (h : Held) (ws : List RegW) : State :=
  let s := { s with held := s.held.filter (fun x => x.id != h.id),
                    flights := s.flights.map (fun f =>
                      let f := f.replayed h.id
                      if f.behind.contains h.id && f.kind == .atomic then { f with writes := f.writes ++ ws } else f) }
  if h.lane = 32 then s
  else
    match s.resident.find? (fun gw => h.isOf (s.warp gw) h.lane) with
    | some gw => s.settleTrigs gw
    | none => s.settleSaved h

/-- A held write whose access cannot be performed: a kill under its station mark (R354); the write of a party outside the warps
is dropped, and a storage transfer that it belongs to has failed (R437). -/
def State.heldKill (s : State) (h : Held) (c : Byte) : State :=
  if h.lane = 32 then
    { s with held := s.held.filter (fun x => x.id != h.id),
             extQ := s.extQ.map (fun (i : Input) => match i with
               | .nvmeReport ids ok => .nvmeReport ids (ok && !(ids.contains h.id))
               | i => i) }
  else ((s.record (s.heldRec h c []) false).1).killParcel h.gw h.vdev h.lseq h.pseq c

/-- Perform a held write at a memory key: the state, and the bytes that a store has covered. -/
def State.performHeld (s : State) (h : Held) (k : Nat) : State × List (Nat × Nat) :=
  match h.atom with
  | none =>
    match s.store k h.data with
    | .ok s => (s.heldDone h [], [(k, h.data.length)])
    | .error c => (s.heldKill h c, [])
  | some (op, w, c, cmp) =>
    match s.atomAt k op w c cmp with
    | (s, .ok v) => (s.heldDone h (loadWrites h.dst (atomWide w) h.lane v), [])
    | (s, .error c) => (s.heldKill h c, [])

/-- A held write goes through a window, or the peer cannot perform it: the write is dropped and the record is a program error,
which ends the parcel (R430). -/
def State.sendHeld (s : State) (h : Held) (j : Nat) : State :=
  let r := match h.atom with
    | none => s.remote h.vdev j .store h.va.toNat h.data
    | some (op, w, c, cmp) => s.remote h.vdev j (.atom op w) h.va.toNat (atomBytesOf w (c, cmp))
  match r with
  | (s, some v) =>
    s.heldDone h (match h.atom with
      | none => []
      | some (_, w, _, _) => loadWrites h.dst (atomWide w) h.lane (trunc w v))
  | (s, none) =>
    if h.lane = 32 then s.heldKill h cRemote
    else ((s.record (s.heldRec h cRemote []) false).1).endParcel h.vdev h.lseq h.pseq cRemote

/-- Replay one held write: translated afresh; still held in a page in migration or a swath in motion; a failed translation
leaves it held and writes its record, and an entry that cannot be read kills (R354, R385, R389). A write of a party outside the
warps that fails is dropped. -/
def State.replayOne (s : State) (h : Held) : State × List (Nat × Nat) :=
  match s.translate (if h.lane = 32 then h.gw else dieOfQuad (quadOfWarp h.gw)) h.vdev h.va true false with
  | (s, .ok k mig) => if mig || (s.inMotion k).isSome then (s, []) else s.performHeld h k
  | (s, .window j) => (s.sendHeld h j, [])
  | (s, .fault c) =>
    if h.lane = 32 || (c != cPageNotPresent && c != cPageProtection) then (s.heldKill h c, [])
    else
      let r := s.record (s.heldRec h c [pageOf h.va.toNat]) false
      ({ r.1 with held := r.1.held.map (fun (x : Held) => if x.id == h.id then { x with fseq := some r.2 } else x) }, [])

/-- An earlier held write stands before one. Of a thread: a lower lane's of the same instruction to common bytes (R188, R197), since
a later access of the thread waits at its instruction (R187, R194). Of a party outside the warps: every one, since its writes stay in
order (R378). -/
def State.heldBehind (s : State) (h : Held) : Bool :=
  s.held.any (fun x => decide (x.id < h.id) &&
    (if h.lane = 32 then x.lane == 32 && x.gw == h.gw && (x.vdev == h.vdev || h.gw == dieB)
     else x.grp == h.grp && x.touches h.va.toNat h.key h.data.length))

/-- The held write with a number tries again, unless it waits for a service or behind another. -/
def State.replayId (s : State) (i : Nat) : State × List (Nat × Nat) :=
  match s.held.find? (fun h => h.id == i) with
  | none => (s, [])
  | some h => if h.fseq.isSome || s.heldBehind h then (s, []) else s.replayOne h

/-- The held writes of one instruction try again; sectors that they cover together get fresh check bits (R400). -/
def State.replayGroup (s : State) (ids : List Nat) : State :=
  let r := ids.foldl (fun (a : State × List (Nat × Nat)) i =>
    let b := a.1.replayId i
    (b.1, a.2 ++ b.2)) (s, [])
  r.1.coverSectors r.2

/-- Every held write that waits for no service tries again, in order. -/
def State.replayHeld (s : State) : State :=
  ((s.held.map (·.grp)).eraseDups).foldl (fun (s : State) g =>
    s.replayGroup ((s.held.filter (fun h => h.grp == g)).map (·.id))) s

/-! ### Frames (R390) -/

/-- Bytes of a frame. -/
def frameBytes (big : Bool) : Nat := if big then 33554432 else 65536

/-- A frame covers a byte of a range of its tier. -/
def Frame.meets (f : Frame) (tier addr n : Nat) : Bool :=
  f.tier == tier && decide (f.addr < addr + n) && decide (addr < f.addr + frameBytes f.big)

/-- A near-tier range lies in a staging area of a replat. -/
def State.staged (s : State) (addr n : Nat) : Bool :=
  (s.hbm.stage ++ s.cxl.stage).any (fun x => decide (x.2 < addr + n) && decide (addr < x.2 + 2097152))

/-- A range that waits for the scrub, or will. -/
def State.unclean (s : State) (tier addr n : Nat) : Bool :=
  s.scrub.any (fun f => f.meets tier addr n) || (tier == 1 && s.staged addr n)

/-- Larkar takes a frame from the clean pool, if it does not hold it already. -/
def State.takeFrame (s : State) (f : Frame) : State := if s.used.contains f then s else { s with used := s.used ++ [f] }

/-- The frame that a present leaf names. -/
def leafFrame (e : Dword) (big : Bool) : Frame := { tier := pteTier e, addr := pteAddr e, big := big }

/-! ### `PAGE_SERVICE` (R206, R219 to R221, R389) -/

/-- Fields of a record's dwords. -/
def recFseq (d : List Dword) : Word := hi32 (dw d 0)
def recCause (d : List Dword) : Byte := BitVec.ofNat 8 (field (dw d 0) 31 24)
def recPc (d : List Dword) : Dword := canon (dw d 2 <<< 2)

/-- Lanes of a warp that park on a record. -/
def Warp.parkedOn (w : Warp) (fseq : Word) : Mask :=
  maskOf (fun l => hasLane w.live l && (match (w.thread l).stat with
    | .parked f _ => f == fseq
    | _ => false))

/-- Warps of a device with threads parked on a record. -/
def State.parkedWarps (s : State) (vdev : Nat) (fseq : Word) : List Nat :=
  s.resident.filter (fun gw => (s.warp gw).vdev == vdev && (s.warp gw).parkedOn fseq != 0)

/-- The threads parked on a record become ready at their strands (R220). -/
def State.unpark (s : State) (vdev : Nat) (fseq : Word) : State :=
  (s.parkedWarps vdev fseq).foldl (fun (s : State) gw =>
    let w := s.warp gw
    s.setWarp gw (w.mapThreads (w.parkedOn fseq) (fun _ t => { t with stat := .ready }))) s

/-- Length in words of the instruction at a PC as its first word gives it, 1 when the word cannot be fetched (R222). -/
def State.lenAt (s : State) (gw : Nat) (pc : Dword) : Nat :=
  let q := quadOfWarp gw
  let v := (s.warp gw).vdev
  match s.fetchWord (coreOfQuad q) v pc 0, s.peek (dieOfQuad q) v pc with
  | some w, _ => wordsIn w
  | none, some k =>
    match s.meetRead k 4 with
    | .ok s => wordsIn (BitVec.ofNat 32 (s.rd k 4))
    | .error _ => 1
  | none, none => 1

/-- Larkar cannot map the page: the record becomes a program error of the parked threads, at its own PC (R206). -/
def State.unmapped (s : State) (vdev : Nat) (fseq : Word) (cause : Byte) (pc : Dword) : State :=
  (s.parkedWarps vdev fseq).foldl (fun (s : State) gw =>
    let w := s.warp gw
    let m := w.parkedOn fseq
    if w.enters m then
      (s.setWarp gw (w.mapThreads m (fun _ t => { t with pc := pc }))).trapEntry gw m 0 fseq cause (s.lenAt gw pc)
    else s.endParcel w.vdev w.lseq w.pseq cause) s

/-- Jobs and held writes whose parcel ends because Larkar cannot map their page. -/
def State.endAsync (s : State) (vdev : Nat) (fseq : Word) (cause : Byte) : State :=
  let js := (s.jobs.filter (fun j => j.vdev == vdev && j.state == .parked && j.fseq == fseq)).map (fun j => (j.lseq, j.pseq))
  let hs := (s.held.filter (fun h => h.vdev == vdev && h.fseq == some fseq)).map (fun h => (h.lseq, h.pseq))
  (js ++ hs).foldl (fun (s : State) (y : Word × Nat) => s.endParcel vdev y.1 y.2 cause) s

/-- What waits on a record goes on (R220, R221, R389). A collective that parked before its contribution went out starts again. -/
def State.serviced (s : State) (vdev : Nat) (fseq : Word) : State :=
  let s := s.unpark vdev fseq
  let s := { s with
    jobs := s.jobs.map (fun (j : Job) => if j.vdev == vdev && j.state == JState.parked && j.fseq == fseq then
      { j with state := if j.kind = JKind.coll ∧ !j.sent then .queued else .running } else j),
    held := s.held.map (fun (h : Held) => if h.vdev == vdev && h.fseq == some fseq then { h with fseq := none } else h) }
  s.replayHeld

/-- The frame that a new leaf of a page takes from the clean pool: none when it names none, or the one that the page has. -/
def State.newFrame (s : State) (vdev : Nat) (va e : Dword) : Option Frame :=
  let big := ((s.leafSlot vdev va).map (·.2)).getD false
  let f := leafFrame e big
  let same : Bool := match s.walk vdev va with
    | .ok (o, b, _) => leafFrame o b == f
    | .error _ => false
  if pteP e && pteLeaf e && !same && !(s.used.contains f) then some f else none

/-- The old frame of a page that has been moved goes to the scrub queue with the invalidation that ends the move (R388). -/
def State.retireFrame (s : State) (i : Inval) : State :=
  match i.old, s.walk i.vdev i.page with
  | some (o, b), .ok (e, c, _) =>
    let f := leafFrame o b
    if pteMig o && !(pteMig e) && f != leafFrame e c && !(s.scrub.contains f) then { s with scrub := s.scrub ++ [f] } else s
  | _, _ => s

/-- Larkar stores a leaf whose invalidation has completed: a frame that it names leaves the clean pool, no die holds the old
entry (R387, R390). It ends the page's invalidations in progress, that of a move among them (R388). -/
def State.setLeaf (s : State) (vdev : Nat) (va e : Dword) : State :=
  let s := ((s.newFrame vdev va e).elim s s.takeFrame).writeLeaf vdev va e
  let big := ((s.leafSlot vdev va).map (·.2)).getD false
  let mine (i : Inval) : Bool := i.vdev == vdev && i.page == pageOf va.toNat && i.table.isNone
  let t := { s with inval := s.inval.filter (fun i => !(mine i)) }.dropTlb vdev va big
  (s.inval.filter mine).foldl State.retireFrame t

/-- A service needs a frame that is not clean: it waits for the scrub (R390). -/
def State.serviceWaits (s : State) (vdev : Nat) (leaves : List (Dword × Dword)) : Bool :=
  leaves.any (fun x => ((s.newFrame vdev x.1 x.2).map (fun f => s.unclean f.tier f.addr (frameBytes f.big))).getD false)

/-- `PAGE_SERVICE`: Larkar stores the leaves it has, invalidates their pages, and releases what waits on the record; or it
cannot map the page. -/
def duePageService (vdev : Nat) (fseq : Word) (leaves : List (Dword × Dword)) (ok : Bool) (s : State) : Option State :=
  match s.larkarQ.find? (fun x => x.1 == vdev && recFseq x.2 == fseq && recCause x.2 != 0x21 && recCause x.2 != 0x22) with
  | none => none
  | some (_, d) =>
    let s := { s with larkarQ := s.larkarQ.filter (fun x => !(x.1 == vdev && recFseq x.2 == fseq)) }
    if ok then
      let s := leaves.foldl (fun (s : State) (x : Dword × Dword) => s.setLeaf vdev x.1 x.2) s
      some (s.serviced vdev fseq)
    else some ((s.unmapped vdev fseq (recCause d) (recPc d)).endAsync vdev fseq (recCause d))

/-- `PAGE_SERVICE`: as `duePageService` has it, once every frame that it needs is clean; while the event is not due it does not
take place, and nothing changes (assumption 14). -/
def execPageService (vdev : Nat) (fseq : Word) (leaves : List (Dword × Dword)) (ok : Bool) (s : State) : Res :=
  s.arrive (.pageService vdev fseq leaves ok) (ok && s.serviceWaits vdev leaves) (duePageService vdev fseq leaves ok s)

/-! ### Invalidation and migration (R387, R388) -/

/-- `INVALIDATE_PAGE`: Larkar stores a new leaf, if it changes it, and starts the invalidation; the old entry stays in force
until it completes. A frame that the leaf newly names leaves the clean pool. -/
def dueInvalidatePage (vdev : Nat) (va : Dword) (entry : Option Dword) (s : State) : Option State :=
  let i := s.invalOf vdev va
  let s := match entry with
    | some e => ((s.newFrame vdev va e).elim s s.takeFrame).writeLeaf vdev va e
    | none => s
  some { s with inval := s.inval ++ [i] }

/-- The new leaf names a frame that is not clean (R390). -/
def State.leafWaits (s : State) (vdev : Nat) (va : Dword) (entry : Option Dword) : Bool :=
  (entry.map (fun e => s.serviceWaits vdev [(va, e)])).getD false

/-- Larkar changes an entry of level 1 or 2 and starts the invalidation of the page; walks read the old entry until it completes (R387). -/
def State.changeTable (s : State) (vdev : Nat) (va : Dword) (top : Bool) (entry : Dword) : State :=
  match s.tableSlot vdev va top with
  | none => s
  | some a =>
    let i : Inval := { vdev := vdev, page := pageOf va.toNat, big := false, old := none, cause := 0,
                       table := some (if top then 1 else 2, a, BitVec.ofNat 64 (s.rd (tierKey 0 a) 8)) }
    { s.wr (tierKey 0 a) 8 entry.toNat with inval := s.inval ++ [i] }

/-- `INVALIDATE_PAGE`: as `dueInvalidatePage` has it, once the frame that it needs is clean. -/
def execInvalidatePage (vdev : Nat) (va : Dword) (entry : Option Dword) (s : State) : Res :=
  s.arrive (.invalidatePage vdev va entry) (s.leafWaits vdev va entry) (dueInvalidatePage vdev va entry s)

/-- `INVALIDATION_COMPLETE`: the page's first invalidation ends, no die holds the old entry, and held writes replay under the new
one. -/
def dueInvalidationComplete (vdev : Nat) (va : Dword) (s : State) : Option State :=
  match s.inval.find? (fun i => i.vdev == vdev && i.page == pageOf va.toNat) with
  | none => none
  | some i =>
    let s := { s with inval := s.inval.erase i }
    let s := match i.table with
      | some x => s.dropUnder vdev va x.1
      | none => s.dropTlb vdev va i.big
    some ((s.replayHeld).retireFrame i)

/-- `INVALIDATION_COMPLETE`: as `dueInvalidationComplete` has it; while the event is not due it does not take place, and nothing changes (assumption 14). -/
def execInvalidationComplete (vdev : Nat) (va : Dword) (s : State) : Res :=
  State.after s (dueInvalidationComplete vdev va s)

/-- Bad words that an access to any of some words repairs, each with its own group (R357). -/
def State.repairIn (s : State) (hit : Nat → Bool) : State :=
  { s with badW := s.badW.filter (fun w => !(hit w && s.repairable w)) }

/-- Copy a range of memory. Words with bad parity are repaired where they can be (R357). Sectors that cannot be read are reported to
Larkar, and their copies carry a lost mark (R400). -/
def State.copyRange (s : State) (src dst n : Nat) : State :=
  let inside (k : Nat) : Bool := decide (src ≤ k) && decide (k < src + n)
  let into (k : Nat) : Bool := decide (dst ≤ k) && decide (k < dst + n)
  let s := s.repairIn (fun w => inside (4 * w) || into (4 * w))
  let cells := s.mem.filter (fun e => inside e.1)
  let bad := ((s.lost ++ s.badSec).filter (fun x => inside (32 * x)) ++
    (s.badW.filter (fun w => inside (4 * w))).map (fun w => w / 8)).eraseDups
  let s := bad.foldl (fun (s : State) x => s.emit (.larkarNote 1 x)) s
  let s := cells.foldl (fun (s : State) (e : Nat × Byte) => s.setByte (dst + (e.1 - src)) e.2) (s.zero dst n)
  let out (x : Nat) : Bool := !(into (32 * x))
  { s with lost := s.lost.filter out ++ bad.map (fun x => x - src / 32 + dst / 32), badSec := s.badSec.filter out }

/-- A swath in motion covers a byte of a range of memory. -/
def State.motionIn (s : State) (k n : Nat) : Bool :=
  let hit (key : Nat) : Bool := decide (key < k + n) && decide (k < key + 2097152)
  s.hbm.inFlight.any (fun sw => hit (tierKey 0 (sw * 2097152))) || s.cxl.inFlight.any (fun sw => hit (tierKey 2 (sw * 2097152)))

/-- The copy of a page waits: its invalidation goes on (R388), the frame is not clean (R390), or a swath moves that it reads or
writes (R401). -/
def State.copyWaits (s : State) (vdev : Nat) (va : Dword) (tier : BitVec 2) (frame : BitVec 48) : Bool :=
  match s.walk vdev va with
  | .error _ => false
  | .ok (e, big, _) =>
    let n := frameBytes big
    pteMig e && ((s.invalAt vdev va).isSome || s.unclean tier.toNat frame.toNat n ||
      s.motionIn (tierKey (pteTier e) (pteAddr e)) n || s.motionIn (tierKey tier.toNat frame.toNat) n)

/-- `MIGRATION_COPY_DONE`: the old frame of a page in migration has been copied to the new one, which leaves the clean pool. -/
def dueMigrationCopyDone (vdev : Nat) (va : Dword) (tier : BitVec 2) (frame : BitVec 48) (s : State) : Option State :=
  match s.walk vdev va with
  | .error _ => none
  | .ok (e, big, _) =>
    if !(pteMig e) || tier == 3 then none
    else
      let s := s.takeFrame { tier := tier.toNat, addr := frame.toNat, big := big }
      some (s.copyRange (tierKey (pteTier e) (pteAddr e)) (tierKey tier.toNat frame.toNat) (frameBytes big))

/-- `MIGRATION_COPY_DONE`: as `dueMigrationCopyDone` has it, once nothing keeps the copy waiting; while the event is not due it does
not take place, and nothing changes (assumption 14). -/
def execMigrationCopyDone (vdev : Nat) (va : Dword) (tier : BitVec 2) (frame : BitVec 48) (s : State) : Res :=
  s.arrive (.migrationCopyDone vdev va tier frame) (s.copyWaits vdev va tier frame) (dueMigrationCopyDone vdev va tier frame s)

/-! ### Freed frames (R390) -/

/-- `FRAME_FREE`: to the scrub queue, unless it waits there already. -/
def execFrameFree (tier : BitVec 2) (frame : BitVec 48) (big : Bool) (s : State) : Res :=
  let f : Frame := { tier := tier.toNat, addr := frame.toNat, big := big }
  .next (if s.scrub.contains f then s else { s with scrub := s.scrub ++ [f] })

/-- The queue of a frame: that of its tier, and in the near tier of its die. -/
def Frame.queue (f : Frame) : Nat := if f.tier = 1 then 3 + f.addr / 2 ^ 31 else f.tier

/-- The first frame of each scrub queue. -/
def State.scrubHeads (s : State) : List Frame :=
  s.scrub.foldl (fun hs f => if hs.any (fun h => h.queue == f.queue) then hs else hs ++ [f]) []

/-- Marks inside a range of memory go. -/
def State.clearMarks (s : State) (k n : Nat) : State :=
  let out (a : Nat) : Bool := !(decide (k ≤ a) && decide (a < k + n))
  { s with lost := s.lost.filter (fun x => out (32 * x)), badSec := s.badSec.filter (fun x => out (32 * x)),
           badW := s.badW.filter (fun w => out (4 * w)) }

/-- `SCRUB_DONE`: the first frame of its queue is zeroed, without a lost mark, and in the clean pool. -/
def dueScrubDone (tier : BitVec 2) (frame : BitVec 48) (s : State) : Option State :=
  match s.scrubHeads.find? (fun f => f.tier == tier.toNat && f.addr == frame.toNat) with
  | none => none
  | some f =>
    let k := tierKey f.tier f.addr
    let n := frameBytes f.big
    let s := (s.zero k n).clearMarks k n
    some { s with scrub := s.scrub.erase f, used := s.used.filter (fun x => x != f) }

/-- `SCRUB_DONE`: as `dueScrubDone` has it; while the event is not due it does not take place, and nothing changes (assumption 14). -/
def execScrubDone (tier : BitVec 2) (frame : BitVec 48) (s : State) : Res :=
  State.after s (dueScrubDone tier frame s)

/-! ### Replat (R393, R396 to R398) -/

/-- Hand the failing unit's entries to the survivors in turn (R397). -/
def platHand (fail : Nat) (live : List Nat) : List Nat → Nat → List Nat
  | [], _ => []
  | e :: es, i =>
    if e = fail then live.getD (i % live.length) 0 :: platHand fail live es (i + 1) else e :: platHand fail live es i

/-- Table P+1 (R397); no table when no unit survives. -/
def platNext (plat : List Nat) (fail : Nat) : List Nat :=
  let live := (platUnits plat).filter (· != fail)
  if live.isEmpty then [] else platHand fail live plat 0

/-- From idle, a unit that the table names fails: the limit of the next table, and evacuation (R396). -/
def Tier.retire (t : Tier) (unit : Nat) : Tier :=
  let n := platNext t.plat unit
  { t with st := .evacuating, platN := n, limit := platLimit t.sizes n, failing := some unit }

/-- A unit of a tier that is idle fails. The last stack of HBM4E is never retired: it is reported to Larkar. -/
def State.unitFails (s : State) (cxl : Bool) (unit : Nat) : State :=
  let t := s.tier cxl
  if !(t.plat.contains unit) then s
  else if !cxl && (platNext t.plat unit).isEmpty then s.emit (.larkarNote 0 unit)
  else s.setTier cxl (t.retire unit)

/-- `UNIT_FAILING` (R396). -/
def execUnitFailing (cxl : Bool) (unit : Nat) (s : State) : Res :=
  let t := s.tier cxl
  if t.st = .idle then .next (s.unitFails cxl unit)
  else .next (s.setTier cxl { t with queued := t.queued ++ [unit] })

/-- A replat has ended: the units that failed meanwhile start from idle, the first that can. -/
def State.nextFailing (s : State) (cxl : Bool) : List Nat → State
  | [] => s
  | u :: us =>
    let s := s.setTier cxl { s.tier cxl with queued := us }
    let s := s.unitFails cxl u
    if (s.tier cxl).st = .idle then State.nextFailing s cxl us else s

/-- Every swath has completed, or there is nothing to move: the old table is discarded (R396). -/
def Tier.finish (t : Tier) : Tier :=
  { t with st := .idle, plat := t.platN, platN := [], failing := none, swaths := 0, doneSw := [], inFlight := [], nextRead := 0 }

def State.finishReplat (s : State) (cxl : Bool) : State :=
  let t := s.tier cxl
  State.nextFailing (s.setTier cxl t.finish) cxl t.queued

/-- The units of a tier without the failing one. -/
def Tier.without (t : Tier) : Word :=
  match t.failing with
  | some u => t.units &&& ~~~ (BitVec.ofNat 32 (2 ^ u))
  | none => t.units

/-- `EVACUATION_DONE` (R396): the next table is installed and moving begins; the last expander of the CXL tier leaves no
table. -/
def dueEvacuationDone (cxl : Bool) (s : State) : Option State :=
  let t := s.tier cxl
  if t.st ≠ .evacuating then none
  else if t.platN.isEmpty then some ((s.setTier cxl { t with units := t.without, limit := 0 }).finishReplat cxl)
  else
    let t := { t with st := .moving, phase := (t.phase + 1) % 256, units := t.without, swaths := t.limit, doneSw := [],
                      inFlight := [], nextRead := t.limit }
    if t.limit = 0 then some ((s.setTier cxl t).finishReplat cxl) else some (s.setTier cxl t)

/-- `EVACUATION_DONE`: as `dueEvacuationDone` has it; while the event is not due it does not take place, and nothing changes (assumption 14). -/
def execEvacuationDone (cxl : Bool) (s : State) : Res :=
  State.after s (dueEvacuationDone cxl s)

/-- Memory key of a tier's swath. -/
def swathKey (cxl : Bool) (sw : Nat) : Nat := tierKey (if cxl then 2 else 0) (sw * 2 ^ 21)

/-- Sectors of a swath that the engine cannot correct on the failing unit get a lost mark (R400). -/
def State.markLost (s : State) (cxl : Bool) (sw : Nat) : State :=
  let t := s.tier cxl
  let k := swathKey cxl sw
  let hit (x : Nat) : Bool := decide (k ≤ 32 * x) && decide (32 * x < k + 2 ^ 21) &&
    t.failing == some (platPlace t.plat (32 * x % 2 ^ 48)).1
  { s with badSec := s.badSec.filter (fun x => !(hit x)), lost := s.lost ++ (s.badSec.filter hit) }

/-- A clean range of 2 MiB in the near tier of a die, the lowest one. -/
def State.stagingArea (s : State) (die : Nat) : Option Nat :=
  ((List.range 832).map (fun i => die * 2 ^ 31 + i * 2097152)).find? (fun a =>
    !(s.unclean 1 a 2097152) && !(s.used.any (fun f => f.meets 1 a 2097152)))

/-- `SWATH_START` (R398): the engine reads the next swath into a staging area of die s mod 8, at most eight being in flight; it waits
while that die's pool has none. -/
def dueSwathStart (cxl : Bool) (s : State) : Option State :=
  let t := s.tier cxl
  if t.st ≠ .moving ∨ t.nextRead = 0 ∨ !(t.inFlight.all (fun x => decide (x < t.nextRead + 7))) then none
  else
    let sw := t.nextRead - 1
    match s.stagingArea (sw % 8) with
    | none => none
    | some a =>
      let s := s.setTier cxl { t with inFlight := t.inFlight ++ [sw], nextRead := sw, stage := NMap.put t.stage sw a }
      some (s.markLost cxl sw)

/-- `SWATH_START`: as `dueSwathStart` has it; while the event is not due it does not take place, and nothing changes (assumption 14). -/
def execSwathStart (cxl : Bool) (s : State) : Res :=
  State.after s (dueSwathStart cxl s)

/-- Completed swaths at the top are counted off: the highest that has not completed is `swaths - 1` (R395). -/
def trimSwaths : Nat → List Nat → Nat × List Nat
  | 0, d => (0, d)
  | n + 1, d => if d.contains n then trimSwaths n (d.filter (· != n)) else (n + 1, d)

/-- A staging area goes back by the scrub queue, frame by frame (R390, R398). -/
def State.freeStage (s : State) (x : Option (Nat × Nat)) : State :=
  match x with
  | none => s
  | some (_, a) => { s with scrub := s.scrub ++ (List.range 32).map (fun i => { tier := 1, addr := a + 65536 * i, big := false }) }

/-- `SWATH_COMPLETE` (R396, R398, R399): the swath is written, stalled requests proceed, the last one ends the replat. -/
def dueSwathComplete (cxl : Bool) (swath : Nat) (s : State) : Option State :=
  let t := s.tier cxl
  if t.st ≠ .moving ∨ !(t.inFlight.contains swath) then none
  else
    let r := trimSwaths t.swaths (swath :: t.doneSw)
    let s := (s.freeStage (t.stage.find? (fun x => x.1 == swath))).setTier cxl { t with
      inFlight := t.inFlight.erase swath, swaths := r.1, doneSw := r.2, stage := NMap.drop t.stage swath }
    let s := s.replayHeld
    if r.1 = 0 then some (s.finishReplat cxl) else some s

/-- `SWATH_COMPLETE`: as `dueSwathComplete` has it; while the event is not due it does not take place, and nothing changes (assumption 14). -/
def execSwathComplete (cxl : Bool) (swath : Nat) (s : State) : Res :=
  State.after s (dueSwathComplete cxl swath s)

/-! ### `PARITY_WALK` (R357) -/

/-- Bad words of a group. -/
def State.badIn (s : State) (group : Nat) : List Nat := s.badW.filter (fun w => s.parityGroup w == group)

/-- `PARITY_WALK`: a group with one bad word is repaired; one with more is found to be past repair. -/
def dueParityWalk (group : Nat) (s : State) : Option State :=
  let ws := s.badIn group
  if ws.length = 1 then some { s with badW := s.badW.filter (fun w => !(ws.contains w)) }
  else if ws.all s.walked.contains then none
  else some { s with walked := s.walked.filter (fun w => !(ws.contains w)) ++ ws }

/-- A word's parity goes bad (R356): what the walk may have found of an earlier error there is over. -/
def State.wordError (s : State) (w : Nat) : State :=
  { s with badW := insertNat w s.badW, walked := s.walked.filter (fun x => x != w) }

/-- A sector of the device tiers can no longer be corrected (R400). -/
def State.sectorError (s : State) (x : Nat) : State := { s with badSec := insertNat x s.badSec }

/-- `PARITY_WALK`: as `dueParityWalk` has it. -/
def execParityWalk (group : Nat) (s : State) : Res := State.after s (dueParityWalk group s)

end Sys2Proof.Machine
end

