-- ==== Sys2Proof/Machine/Tenants.lean ====
section
/-! DEFINITION. Virtual devices (spec/21): partition entries (R402, R403), contracts (R404), debug rights (R410), live
migration (R411, R412), and the writes of front-end registers (R8, R413, R429, R436), with their events. -/

namespace Sys2Proof.Machine

/-! ### Partition entries (R402, R403) -/

/-- Owner of quadrant `k` in a partition entry's dword 0. -/
def ownOf (d : Dword) (k : Nat) : BitVec 16 := BitVec.ofNat 16 (field d (16 * k + 15) (16 * k))

/-- The policy core refuses a write: an illegal division, or a bank set with two owners. -/
def partitionOk (own div : Dword) : Bool :=
  let n := field div 2 0
  decide (n ≤ 4) && (divSets n).all (fun d => d.2.2.all (fun k => ownOf own k == ownOf own (d.2.2.headD 0)))

/-- Quadrants of a core whose owner a write changes. -/
def Core.changed (x : Core) (own : Dword) : List Nat :=
  [0, 1, 2, 3].filter (fun k => ownOf own k !=
    (match k with
     | 0 => x.own0
     | 1 => x.own1
     | 2 => x.own2
     | _ => x.own3))

/-- Bank sets of a division that serve one of some quadrants: first bank, number of banks. -/
def setsServing (div : Nat) (ks : List Nat) : List (Nat × Nat) :=
  ((divSets div).filter (fun d => d.2.2.any ks.contains)).map (fun d => (d.1, d.2.1))

/-- Zero one bank set of a core with its tags (R403). -/
def State.zeroSet (s : State) (core : Nat) (b : Nat × Nat) : State :=
  let k := scrKey core b.1 0
  let n := b.2 * 131072
  let s := (s.zero k n).clearMarks k n
  let x := s.core core
  let tags (w : Nat) : Bool := decide (tagWord core (4 * b.1) ≤ w) && decide (w < tagWord core (4 * (b.1 + b.2)))
  { s with badW := s.badW.filter (fun w => !(tags w)) }.setCore core { x with tags := NMap.clear x.tags (4 * b.1) (4 * b.2) }

/-- Zero a quadrant's hold file and accumulator (R403); no warp stands there, and no request any more. -/
def State.zeroQuad (s : State) (q : Nat) : State :=
  let hold (w : Nat) : Bool := decide (holdWord (16 * q) 0 ≤ w) && decide (w < holdWord (16 * q + 16) 0)
  { s with badW := s.badW.filter (fun w => !(hold w)) }.setQuad q { s.quad q with work := Acc.init, commit := Acc.init, req := none }

/-- A job belongs to a warp of one of some quadrants of a core, or its scratchpad region or closure lies in a bank set that serves
them. -/
def Job.onQuads (j : Job) (core : Nat) (ks : List Nat) (sets : List (Nat × Nat)) : Bool :=
  let inSet (key : Nat) : Bool := sets.any (fun b => decide (scrKey core b.1 0 ≤ key) && decide (key < scrKey core (b.1 + b.2) 0))
  (j.box.isNone && coreOfQuad (quadOfWarp j.gw) == core && ks.contains (quadOfWarp j.gw % 4)) ||
  inSet j.sKey || (j.clo.map (fun c => inSet c.2.2)).getD false

/-- A warp stands on one of some quadrants of a core, or a job uses what they hold. -/
def State.coreBusy (s : State) (core : Nat) (ks : List Nat) : Bool :=
  s.resident.any (fun gw => coreOfQuad (quadOfWarp gw) == core && ks.contains (quadOfWarp gw % 4)) ||
  s.jobs.any (fun j => j.onQuads core ks (setsServing (s.core core).div ks))

/-- What is marked for the images of parcels on some quadrants of a core goes into them. -/
def State.captureQuads (s : State) (core : Nat) (ks : List Nat) : State :=
  let here (p : Parcel) : Bool := p.quadsAt.any (fun y => coreOfQuad y.2 == core && ks.contains (y.2 % 4))
  let s := s.meetPlaces core (fun p => here p && p.imgFull.any (fun q => coreOfQuad q == core))
  s.mapParcels (fun p => if here p then s.captureFull core p else p)

/-- An accepted write of a partition entry: captured images, zeroing of what changes hands, the entry, and the saved warps
of the new owners that may come back. -/
def State.repartition (s : State) (core : Nat) (own : Dword) (div : Nat) (ks : List Nat) : State :=
  let s := s.captureQuads core ks
  let old := setsServing (s.core core).div ks
  let s := (old ++ setsServing div ks).foldl (fun (s : State) b => s.zeroSet core b) s
  let s := ks.foldl (fun (s : State) k => s.zeroQuad (4 * core + k)) s
  let s := s.setCore core { s.core core with own0 := ownOf own 0, own1 := ownOf own 1, own2 := ownOf own 2,
                                             own3 := ownOf own 3, div := div }
  s.resumeWhere (fun x => coreOfQuad (quadOfWarp x.gw) == core && ks.contains (quadOfWarp x.gw % 4))

/-- `PARTITION_WRITE` (R402, R403): the mailbox answers whether the policy core takes it. Larkar writes only quadrants whose
warps have left, and changes the division of a core only when nothing stands on it. -/
def duePartitionWrite (core : Nat) (own div : Dword) (s : State) : Option State :=
  let x := s.core core
  let n := field div 2 0
  let ks := if n = x.div then x.changed own else [0, 1, 2, 3]
  if 384 ≤ core then none
  else if !(partitionOk own div) then some (s.emit (.mailbox false))
  else if ks ≠ [] ∧ s.coreBusy core ks then none
  else some ((s.repartition core own n ks).emit (.mailbox true))

/-- `PARTITION_WRITE`: as `duePartitionWrite` has it; while the event is not due it does not take place, and nothing changes (assumption 14). -/
def execPartitionWrite (core : Nat) (own div : Dword) (s : State) : Res :=
  State.after s (duePartitionWrite core own div s)

/-! ### Contracts (R404) -/

/-- A contract as Larkar's dwords give it. The fields that the part maintains keep what `old` holds (R8). -/
def contractOf (d : List Dword) (old : Contract) : Contract :=
  { old with
    vdev := field (dw d 0) 63 48, qres := BitVec.ofNat 16 (field (dw d 0) 47 32), bwh := field (dw d 0) 31 24,
    bwc := field (dw d 0) 23 16, fqlog := field (dw d 0) 15 12, dbg := (dw d 0).getLsbD 2, v := (dw d 0).getLsbD 0,
    ptroot := dw d 1, ttbase := dw d 2, fqbase := dw d 3, phndl := dw d 4, pbud := hi32 (dw d 5), wdog := lo32 (dw d 5),
    savea := dw d 6, qtab := dw d 7, slice := hi32 (dw d 8) }

/-- Sum of a share over the devices that exist, with one contract in place of its device's. -/
def State.shares (s : State) (c : Contract) (f : Contract → Nat) : Nat :=
  ((s.contracts.map (·.2)).filter (fun x => x.v && x.vdev != c.vdev)).foldl (fun n x => n + f x) (if c.v then f c else 0)

/-- The policy core takes a contract: the device number is legal, and no share sums above 240. -/
def State.contractOk (s : State) (c : Contract) : Bool :=
  decide (c.vdev < 0xFFFF) && decide (s.shares c (·.bwh) ≤ 240) && decide (s.shares c (·.bwc) ≤ 240)

/-- Warps that a debugger holds are released, those that `p` names; saved ones resume when no halt holds them any more
(R410, R417). -/
def State.release (s : State) (p : Warp → Bool) (g : Nat → Bool) : State :=
  let free (w : Warp) : Warp := if p w then { w with halts := w.halts.filter (fun x => !(g x)) } else w
  let s := s.resident.foldl (fun (s : State) gw => s.setWarp gw (free (s.warp gw))) s
  let s := { s with saved := s.saved.map (fun (x : Saved) => { x with warp := free x.warp }) }
  s.resumeWhere (fun x => p x.warp)

/-- `DBG` clears (R410): halted groups are released, the slots go off, and no debugger is attached. -/
def State.clearDebug (s : State) (v : Nat) : State :=
  let c := s.contract v
  let slots := (List.range 16).foldl (fun m i => NMap.set 0 m (4 + i) 0) c.debug
  let s := s.setContract v { c with debug := slots, attached := false }
  s.release (fun w => w.vdev == v) (fun _ => true)

/-- Put a contract in force. A device that exists no more has no issue rights; with rotation it keeps what it has (R404, R409). -/
def State.install (s : State) (c : Contract) : State :=
  let old := s.contract c.vdev
  let s := s.setContract c.vdev { c with rights := c.rights && (c.v || c.slice != 0) }
  if old.dbg && !c.dbg then s.clearDebug c.vdev else s

/-- A device without rotation holds issue rights, from the moment at which no warp of it leaves any more; with them its next slice
begins (R409). -/
def State.grant (s : State) (v : Nat) : State :=
  let c := s.contract v
  if c.v && !c.stop && c.slice == 0 && !c.rights && !(s.leaving v) then s.beginSlice v else s

/-- `CONTRACT_WRITE` (R404): the mailbox answers whether the policy core takes it. -/
def dueContractWrite (c : List Dword) (s : State) : Option State :=
  let v := field (dw c 0) 63 48
  let x := contractOf c (s.contract v)
  if c.length ≠ 10 then none
  else if !(s.contractOk x) then some (s.emit (.mailbox false))
  else some (((s.install x).grant v).emit (.mailbox true))

/-- `CONTRACT_WRITE`: as `dueContractWrite` has it; while the event is not due it does not take place, and nothing changes (assumption 14). -/
def execContractWrite (c : List Dword) (s : State) : Res :=
  State.after s (dueContractWrite c s)

/-! ### Front-end registers (R8, R9, R413, R428, R429, R436) -/

/-- The bits of a debug-block dword that a write reaches; none for a dword that is reserved whole (R413). -/
def debugMask (i : Nat) : Dword :=
  if i < 2 then 0xFFFFFFFFFFFFFFFF
  else if i = 2 then 0xFFFFFC0000000000
  else if i = 3 then 0
  else if i % 2 = 0 then 0xC1FFFFFFFFFFFFFF
  else 0xFFFFFFFFFFFFFFFF

/-- The bits of a window dword that a write reaches (R429). -/
def windowMask (k : Nat) : Dword := if k = 0 then 0xFFFFFFFFFFFF0003 else 0xFFFFFFFFFFFFFFFF

/-- `REGISTER_WRITE` (R8): a write of the debug block, a remote window, the Ethernet binding or a port's peer. -/
def dueRegisterWrite (vdev : Nat) (r : FeReg) (v : Dword) (s : State) : Option State :=
  let c := s.contract vdev
  match r with
  | .debug i =>
    if 20 ≤ i then none
    else some (s.setContract vdev { c with debug := NMap.set 0 c.debug i (v &&& debugMask i) })
  | .window j k =>
    if 16 ≤ j ∨ 3 ≤ k then none
    else some (s.setContract vdev { c with windows := NMap.set 0 c.windows (3 * j + k) (v &&& windowMask k) })
  | .etherPort => some (s.setContract vdev { c with ethPort := v })
  | .etherMac => some (s.setContract vdev { c with ethMac := v })
  | .etherTag => some (s.setContract vdev { c with ethTag := v })
  | .portPeer p =>
    if 72 ≤ p then none
    else some { s with ports := NMap.set Port.init s.ports p { NMap.get Port.init s.ports p with peer := v.setWidth 16 } }

/-- `REGISTER_WRITE`: as `dueRegisterWrite` has it; while the event is not due it does not take place, and nothing changes (assumption 14). -/
def execRegisterWrite (vdev : Nat) (r : FeReg) (v : Dword) (s : State) : Res :=
  State.after s (dueRegisterWrite vdev r v s)

/-! ### Live migration (R411, R412) -/

/-- Indices of the 8-byte entries of a table that hold anything. -/
def State.entriesIn (s : State) (addr n : Nat) : List Nat :=
  let k := tierKey 0 addr
  ((s.mem.filter (fun e => decide (k ≤ e.1) && decide (e.1 < k + 8 * n))).map (fun e => (e.1 - k) / 8)).eraseDups

/-- An entry of a table as memory holds it. -/
def State.pteAt (s : State) (addr : Nat) : Dword := BitVec.ofNat 64 (s.rd (tierKey 0 addr) 8)

/-- Leaves below a level-2 table that maps the 2 TiB from `va`: the addresses of their entries, each with the first
address that it maps. -/
def State.leavesOf2 (s : State) (t2 va : Nat) : List (Nat × Nat) :=
  ((s.entriesIn t2 65536).map (fun i =>
    let a := t2 + 8 * i
    let at' := va + i * 2 ^ 25
    let e := s.pteAt a
    if !(pteP e) then []
    else if pteLeaf e then [(a, at')]
    else ((s.entriesIn (pteAddr e) 512).map (fun k => (pteAddr e + 8 * k, at' + k * 65536))).filter (fun b => pteP (s.pteAt b.1)))).flatten

/-- Every leaf of a device, with the address that it maps. -/
def State.leaves (s : State) (v : Nat) : List (Nat × Nat) :=
  let root := (s.contract v).ptroot.toNat
  ((s.entriesIn root 65536).map (fun i =>
    let e := s.pteAt (root + 8 * i)
    if pteP e && pteTableOk e 524288 then s.leavesOf2 (pteAddr e) (i * 2 ^ 41) else [])).flatten

/-- Copy a page to the migration target; words with bad parity are repaired where they can be (R357), and sectors that cannot be read are
reported to Larkar (R400). -/
def State.sendPage (s : State) (v : Nat) (va : Dword) : State :=
  match s.walk v va with
  | .error _ => s
  | .ok (e, big, _) =>
    let k := tierKey (pteTier e) (pteAddr e)
    let n := frameBytes big
    let s := s.repairIn (fun w => decide (k ≤ 4 * w) && decide (4 * w < k + n))
    let bad := ((s.lost ++ s.badSec).filter (fun x => decide (k ≤ 32 * x) && decide (32 * x < k + n))).eraseDups
    (bad.foldl (fun (s : State) x => s.emit (.larkarNote 1 x)) s).emit
      (.page v (pageOf va.toNat) (s.bytes k n) (bad.map (fun x => x - k / 32)))

/-- `PRECOPY_ROUND` (R411): `D` is cleared in every leaf, every page is invalidated, with which invalidations in progress end and held
writes replay (R387 to R389), and the pages of the round's bitmap are copied to the target. -/
def duePrecopyRound (vdev : Nat) (pages : List Dword) (s : State) : Option State :=
  if !(s.contract vdev).v then none
  else
    let s := (s.leaves vdev).foldl (fun (s : State) x =>
      s.wr (tierKey 0 x.1) 8 (s.pteAt x.1 &&& ~~~ ((1 : Dword) <<< 58)).toNat) s
    let is := s.inval.filter (fun i => i.vdev == vdev)
    let s := { s with tlbs := s.tlbs.filter (fun t => !(t.vdev == vdev)), inval := s.inval.filter (fun i => !(i.vdev == vdev)) }
    some (pages.foldl (fun (s : State) va => s.sendPage vdev va) (is.foldl State.retireFrame s.replayHeld))

/-- `PRECOPY_ROUND`: as `duePrecopyRound` has it; while the event is not due it does not take place, and nothing changes (assumption 14). -/
def execPrecopyRound (vdev : Nat) (pages : List Dword) (s : State) : Res :=
  State.after s (duePrecopyRound vdev pages s)

/-- `MIGRATION_STOP` (R411): `STOP` is set, the device loses its issue rights, and a request with Bp = 0 goes to every
quadrant of it. The stop completes in `State.migrationStep`. -/
def dueMigrationStop (vdev : Nat) (s : State) : Option State :=
  let c := s.contract vdev
  if !c.v || c.stop then none
  else
    let s := s.setContract vdev { c with stop := true, rights := false, moving := true }
    let s := (s.quadsOf vdev).foldl (fun (s : State) q => s.request q .stop vdev 0) s
    some (s.unstage (fun x _ => x.vdev == vdev))

/-- `MIGRATION_STOP`: as `dueMigrationStop` has it; while the event is not due it does not take place, and nothing changes (assumption 14). -/
def execMigrationStop (vdev : Nat) (s : State) : Res :=
  State.after s (dueMigrationStop vdev s)

/-- An access of a party outside to a device that waits for a page or behind a held write (R378, R389). -/
def Input.waitsFor (v : Nat) : Input → Bool
  | .kick w _ _ | .hostWrite w _ _ | .remoteRequest _ w _ _ _ _ => w == v
  | _ => false

/-- A stop is complete (R411): every warp is saved, every job that had started has completed, every held write has replayed, those of
parties outside among them. -/
def State.stopDone (s : State) (v : Nat) : Bool :=
  !(s.resident.any (fun gw => (s.warp gw).vdev == v)) && !(s.jobs.any (fun j => j.vdev == v && !j.unstarted)) &&
  !(s.held.any (fun h => h.vdev == v)) && !(s.extQ.any (Input.waitsFor v))

/-- The eight dwords of the tensor table's entries. -/
def State.tableOut (s : State) (v : Nat) : List (List Dword) :=
  (List.range 4096).map (fun i => s.dwords ((s.contract v).slotKey i) 8)

/-- The 32 queue descriptors. -/
def State.queuesOut (s : State) (v : Nat) : List Dword := s.dwords ((s.contract v).queueKey 0) 64

/-- The final copy and the transfer of a device whose stop is complete (R411, R412): the images of its launches as they stand, the pages written
since the last round, and the items of the transfer. The job section goes with the image. -/
def State.sendDevice (s : State) (v : Nat) : State :=
  let s := (s.launches.filter (fun x => x.vdev == v)).foldl (fun (s : State) x => if x.settledW || x.endedW then s else s.writeImage x) s
  let dirty := (s.leaves v).filter (fun x => pteD (s.pteAt x.1))
  let s := dirty.foldl (fun (s : State) x => s.sendPage v (canon (BitVec.ofNat 64 x.2))) s
  let c := s.contract v
  let s := (s.emit (.image v c.savea)).emit (.transfer v c.fseqc c.lseql c.drop (s.queuesOut v) c.pending (s.tableOut v))
  s.setContract v { c with moving := false }

/-- Stops that are complete go on to the final copy and the transfer. -/
def State.migrationStep (s : State) : State :=
  (s.contracts.filter (fun c => c.2.moving)).foldl (fun (s : State) c => if s.stopDone c.1 then s.sendDevice c.1 else s) s

/-- Write the queue table of a device (R408). -/
def State.putQueues (s : State) (v : Nat) (qs : List (Dword × Dword)) : State :=
  ((List.range 32).zip qs).foldl (fun (s : State) (x : Nat × Dword × Dword) =>
    s.setBytes ((s.contract v).queueKey x.1) (dwordBytes [x.2.1, x.2.2])) s

/-- `MIGRATION_RESUME` (R411, R412): the target installs the contract, with the fields that the part maintains, and the
queues, and submits the launch of the saved image; a device without rotation then begins its first slice. -/
def dueMigrationResume (c : List Dword) (queues : List (Dword × Dword)) (pend : Word) (rec : List Dword) (s : State) :
    Option State :=
  let v := field (dw c 0) 63 48
  let x := { contractOf c Contract.init with
    fseqc := lo32 (dw c 8), lseql := hi32 (dw c 9), drop := lo32 (dw c 9), pending := pend }
  if c.length ≠ 10 ∨ rec.length ≠ 8 ∨ queues.length ≠ 32 then none
  else if !(s.contractOk x) then some (s.emit (.mailbox false))
  else some (((((s.install x).putQueues v queues).submit (recVdev rec == v) rec).grant v).emit (.mailbox true))

/-- `MIGRATION_RESUME`: as `dueMigrationResume` has it; while the event is not due it does not take place, and nothing changes (assumption 14). -/
def execMigrationResume (c : List Dword) (queues : List (Dword × Dword)) (pend : Word) (rec : List Dword) (s : State) : Res :=
  State.after s (dueMigrationResume c queues pend rec s)

end Sys2Proof.Machine
end

