-- ==== Sys2Proof/Machine/Debug.lean ====
section
/-! DEFINITION. The debugger and the samplers (spec/22): attaching (R410), halts, edits and releases (R414, R417), and stall
samples (R418, R419), with their events. -/

namespace Sys2Proof.Machine

/-- The warps of a launch's group. -/
def Warp.inHalt (w : Warp) (v : Nat) (l : Word) (g : Nat) : Bool := w.vdev == v && w.lseq == l && w.inGroup g

/-- `DEBUGGER_ATTACH` (R410). -/
def dueDebuggerAttach (vdev : Nat) (s : State) : Option State :=
  let c := s.contract vdev
  if c.v && c.dbg then some (s.setContract vdev { c with attached := true }) else none

/-- `DEBUGGER_ATTACH`: as `dueDebuggerAttach` has it; while the event is not due it does not take place, and nothing changes (assumption 14). -/
def execDebuggerAttach (vdev : Nat) (s : State) : Res :=
  State.after s (dueDebuggerAttach vdev s)

/-- `HALT_GROUP` (R417): the warps of the group are held from now on, and saved once they are; ones already saved stay. -/
def dueHaltGroup (vdev : Nat) (lseq : Word) (g : Nat) (s : State) : Option State :=
  if !(s.contract vdev).dbg then none
  else
    let halt (w : Warp) : Warp := if w.inHalt vdev lseq g then { w with halts := insertNat g w.halts } else w
    let s := s.resident.foldl (fun (s : State) gw => s.setWarp gw (halt (s.warp gw))) s
    some { s with saved := s.saved.map (fun (x : Saved) => { x with warp := halt x.warp }) }

/-- `HALT_GROUP`: as `dueHaltGroup` has it; while the event is not due it does not take place, and nothing changes (assumption 14). -/
def execHaltGroup (vdev : Nat) (lseq : Word) (g : Nat) (s : State) : Res :=
  State.after s (dueHaltGroup vdev lseq g s)

/-- `RELEASE_GROUP` (R417). -/
def dueReleaseGroup (vdev : Nat) (lseq : Word) (g : Nat) (s : State) : Option State :=
  if !(s.contract vdev).dbg then none
  else some (s.release (fun w => w.inHalt vdev lseq g) (fun x => x == g))

/-- `RELEASE_GROUP`: as `dueReleaseGroup` has it; while the event is not due it does not take place, and nothing changes (assumption 14). -/
def execReleaseGroup (vdev : Nat) (lseq : Word) (g : Nat) (s : State) : Res :=
  State.after s (dueReleaseGroup vdev lseq g s)

/-- What an edit names is there: a lane, a register or mask of the warp, a PC as an image may hold it, an area that an image
may hold (R333, R334). -/
def Warp.takes (w : Warp) (e : Edit) : Bool :=
  match e with
  | .hold l r _ => decide (l < 32) && decide (r < w.hc)
  | .uniform r _ => decide (r < 64)
  | .pred l i _ => decide (l < 32) && decide (i < 7)
  | .mask i _ => decide (i < 16)
  | .pc l v => decide (l < 32) && aligned v 4
  | .area l b => decide (l < 32) && b.length == 128 && areaOk b
  | .jobs _ | .trig _ => true
  | .scratch _ _ _ | .tag _ _ _ | .acc _ _ _ _ => false

/-- A thread with the area of R333 written over. `LIVE` and `DEPTH` (R131) and the trap state's `FSEQ`, `CAUSE` and `INTRAP` (R223)
are `HW` fields: the debugger's write leaves them unchanged (R8). -/
def Thread.withArea (t : Thread) (b : List Byte) : Thread :=
  let n := threadOf b true t.trig
  { t with pc := n.pc, rpc := n.rpc, e1 := n.e1, e2 := n.e2, e3 := n.e3, e4 := n.e4,
           trap := { n.trap with fseq := t.trap.fseq, cause := t.trap.cause, inTrap := t.trap.inTrap } }

/-- An edit of a saved warp. -/
def Warp.edited (w : Warp) (e : Edit) : Warp :=
  let w := { w with edit := true }
  match e with
  | .hold l r v => w.setHold l r v
  | .uniform r v => w.setUni r v
  | .pred l i v => w.setPredIn i (laneBit l) (if v then laneBit l else 0)
  | .mask i v => w.setJ i v
  | .pc l v => w.setThread l { w.thread l with pc := v, rpc := v }
  | .area l b =>
    (List.range 7).foldl (fun (w : Warp) k =>
        w.setPredIn k (laneBit l) (if (at' b 16 1).testBit k then laneBit l else 0))
      (w.setThread l ((w.thread l).withArea b))
  | .jobs v => { w with jobs := v }
  | .trig m => w.mapThreads w.live (fun l t => { t with trig := hasLane m l })
  | .scratch _ _ _ | .tag _ _ _ | .acc _ _ _ _ => w

/-- Edit one field of an accumulator. The run registers are `HW` fields: the write leaves them unchanged (R8, R281). -/
def Acc.edited (a : Acc) (field k : Nat) (v : Dword) : Acc :=
  match field with
  | 0 => { a with el := NMap.set 0 a.el k (lo32 v) }
  | 1 => { a with res := NMap.set 0 a.res k (loadRes (lo32 v)) }
  | 2 => a.setL v.toNat
  | _ => a

/-- Edit a part of a parcel's saved state (R352, R417), which stands in the image, or in place while the image has not taken it
yet; none when the parcel has no such part, or it is not saved. A tag entry keeps its fields, which are `HW` (R8, R201). -/
def State.editPlace (s : State) (v : Nat) (l : Word) (p : Parcel) (e : Edit) : Option State :=
  let core (i : Nat) : Nat := (p.place.getD i (0, 0)).1
  let there (i : Nat) : Bool := decide (i < p.place.length) && s.coreSaved v l p.pseq (core i)
  let marked (c : Nat) : Bool := p.imgExt.contains c || p.imgFull.any (fun q => coreOfQuad q == c)
  let inImage (f : Parcel → Parcel) : Option State := some (s.modParcel v l p.pseq f)
  match e with
  | .scratch i off b =>
    match s.extentOf p (core i) with
    | none => none
    | some (k, n) =>
      let key := k + (off - p.sbase)
      if !(there i) || off < p.sbase || p.sbase + n ≤ off then none
      else if marked (core i) then some (s.setByte key b)
      else inImage (fun y => { y with imgScr := NMap.set byte0 y.imgScr key b })
  | .tag i k _ => if there i && decide (k < (s.tagsOf p (core i)).length) then some s else none
  | .acc lq field k d =>
    match p.quadsAt.find? (fun x => x.1 == lq) with
    | none => none
    | some (_, q) =>
      if !(p.accQuads.contains q) || 16384 ≤ k || 6 ≤ field || !(s.coreSaved v l p.pseq (coreOfQuad q)) then none
      else if p.imgFull.contains q then
        let a := (s.committed q).edited field k d
        some (s.setQuad q { s.quad q with work := a, commit := a })
      else inImage (fun y => { y with imgAcc := NMap.set Acc.init y.imgAcc q ((NMap.get Acc.init y.imgAcc q).edited field k d) })
  | _ => some s

/-- A saved warp that the debugger may edit. -/
def State.editable (s : State) (gw : Nat) (x : Saved) : Bool :=
  x.gw == gw && !x.warp.halts.isEmpty && (s.contract x.warp.vdev).dbg

/-- `EDIT` (R417): of a halted warp's saved state, or of its parcel's. The image carries `EDIT` from then on, and is written anew. -/
def dueEdit (gw : Nat) (e : Edit) (s : State) : Option State :=
  match s.saved.find? (s.editable gw) with
  | none => none
  | some x =>
    let w := x.warp
    let mark (s : State) : State := s.modLaunch w.vdev w.lseq (fun y => { y with edit := true, stale := true })
    let put (s : State) : State := { s with saved := s.saved.map (fun (y : Saved) => if y == x then { x with warp := w.edited e } else y) }
    match e with
    | .scratch _ _ _ | .tag _ _ _ | .acc _ _ _ _ =>
      (s.parcel? w.vdev w.lseq w.pseq).bind (fun p => (s.editPlace w.vdev w.lseq p e).map (fun s => mark (put s)))
    | .trig _ => some ((mark (put s)).checkTrigger w.vdev w.lseq w.pseq)
    | _ => if w.takes e then some (mark (put s)) else none

/-- `EDIT`: as `dueEdit` has it; while the event is not due it does not take place, and nothing changes (assumption 14). -/
def execEdit (gw : Nat) (e : Edit) (s : State) : Res :=
  State.after s (dueEdit gw e s)

/-- Lanes of a warp that are stopped for the debugger on a record. -/
def Warp.stoppedOn (w : Warp) (fseq : Word) : Mask :=
  maskOf (fun l => hasLane w.live l && (match (w.thread l).stat with
    | .parked f d => f == fseq && d
    | _ => false))

/-- `RELEASE_THREAD` (R414): the threads go on from their restart PCs, and each passes the breakpoint where it stopped once. -/
def dueReleaseThread (vdev : Nat) (fseq : Word) (s : State) : Option State :=
  let ws := s.resident.filter (fun gw => (s.warp gw).vdev == vdev && (s.warp gw).stoppedOn fseq != 0)
  if ws.isEmpty then none
  else
    let s := { s with larkarQ := s.larkarQ.filter (fun x => !(x.1 == vdev && recFseq x.2 == fseq)) }
    some (ws.foldl (fun (s : State) gw =>
      let w := s.warp gw
      s.setWarp gw (w.mapThreads (w.stoppedOn fseq) (fun _ t =>
        { t with stat := .ready, bpPass := t.bpStop, bpStop := none }))) s)

/-- `RELEASE_THREAD`: as `dueReleaseThread` has it; while the event is not due it does not take place, and nothing changes (assumption 14). -/
def execReleaseThread (vdev : Nat) (fseq : Word) (s : State) : Res :=
  State.after s (dueReleaseThread vdev fseq s)

/-! ### Stall samples (R418, R419) -/

/-- The clock of the sampler's next sample. -/
def Sampler.at (m : Sampler) : Nat := m.start + (m.count + 1) * m.per

/-- A stall sample is due: its clock has passed. -/
def Quad.sampleDue (x : Quad) : Bool := x.sampler.mode == 1 && decide (x.sampler.at < x.clock)

/-- The next slot in ascending rotation that holds a warp of the sampler's device now. -/
def State.nextSlot (s : State) (q : Nat) : Option Nat :=
  let m := (s.quad q).sampler
  let ks := (s.slots q).filter (fun k => (s.warp (16 * q + k)).vdev == m.vdev)
  minBy (fun k => (k + 16 - m.next) % 16) ks

/-- The slot that a sample takes: as the clock found it. -/
def State.sampleSlot (s : State) (q : Nat) : Option Nat :=
  match (s.quad q).snap with
  | some v => v.map (·.slot)
  | none => s.nextSlot q

/-- What the sampled clock found of a warp. -/
def Quad.view (x : Quad) (k : Nat) : Option SampleView := (x.snap.getD none).filter (fun v => v.slot == k)

/-- The sampled warp, as the clock found it. -/
def State.sampleWarp (s : State) (q k : Nat) : Warp := ((s.quad q).view k).elim (s.warp (16 * q + k)) (·.warp)

/-- The first set of a warp, eligible or not: PC and lanes. -/
def State.anySet (s : State) (gw : Nat) : Option (Dword × Mask) := ((s.sets gw).head?).map (fun x => (x.1, x.2.1))

/-- The lowest non-exited thread, with the threads that stand at its PC. -/
def Warp.lowSet (w : Warp) : Dword × Mask :=
  let pc := (w.thread (lowest w.live)).pc
  (pc, maskOf (fun l => hasLane w.live l && (w.thread l).pc == pc))

/-- The set of a warp before the clock's issue: `cur` when it is the warp's, else the set that R163 would choose, else one that
waits. -/
def State.setNow (s : State) (q k : Nat) : Dword × Mask :=
  let gw := 16 * q + k
  let own : Option (Dword × Mask) := match s.curSet q with
    | some (i, m, pc) => if i = k then some (pc, m) else none
    | none => none
  match own, s.eligibleSets gw, s.anySet gw with
  | some c, _, _ => c
  | none, e :: _, _ => e
  | none, [], some c => c
  | none, [], none => (s.warp gw).lowSet

/-- The set that issued last is of slot `k`. -/
def Quad.lastOf (x : Quad) (k : Nat) : Bool :=
  match x.cur with
  | some (i, _, _) => i == k
  | none => false

/-- The set that a sample of a warp names: the one that issued in the clock, else as the clock found it. -/
def State.sampleSet (s : State) (q k : Nat) : Dword × Mask :=
  let x := s.quad q
  match x.cur, x.view k with
  | some (i, m, pc), v => if i = k ∧ x.issued then (pc, m) else v.elim (s.setNow q k) (fun v => (v.pc, v.lanes))
  | none, v => v.elim (s.setNow q k) (fun v => (v.pc, v.lanes))

/-- A thread waits at its instruction: stalled, or for its gang. -/
def Thread.waiting (t : Thread) : Bool :=
  match t.stat with
  | .stalled _ => true
  | .gang => true
  | _ => false

/-- The quadrant was held in the clock of a sample: by power or coolant, or by its device's bandwidth share (R405, R418). -/
def State.sampleHold (s : State) (q : Nat) : Bool :=
  let x := s.quad q
  x.heldAt == some x.sampler.at || (!x.issued && Config.shareThrottled x.sampler.vdev s.pclk)

/-- The first class that applies to a warp whose set neither issues nor waits on fetch (R418). -/
def State.waitClass (s : State) (q k : Nat) : Nat :=
  let gw := 16 * q + k
  let w := s.warp gw
  let active := (s.quad q).active.contains k
  let runs (l : Nat) : Bool := ((w.thread l).isReady || (w.thread l).waiting) && !(s.asked gw && s.heldThread gw l)
  if active && (laneList w.live).any runs then 2
  else if !active then 7
  else
    match (w.thread (lowest w.live)).stat with
    | .bwait _ _ => 3
    | .waitj _ _ => 4
    | .sleepj _ _ => 4
    | _ => 8

/-- A sample's view of a warp: `can` says which of its eligible sets could issue, not waiting at their instruction (R161, R214). -/
def State.viewOf (s : State) (q k : Nat) (can : Mask → Dword → Bool) : SampleView :=
  let c := s.setNow q k
  { slot := k, warp := s.warp (16 * q + k), pc := c.1, lanes := c.2, active := (s.quad q).active.contains k,
    ready := (s.eligibleSets (16 * q + k)).any (fun e => can e.2 e.1), cls := s.waitClass q k }

/-- The class of a sample (R418), the first of the list that applies: what the clock found, and what issued in it. -/
def State.sampleClass (s : State) (q k : Nat) : Nat :=
  let x := s.quad q
  let v := (x.view k).getD (s.viewOf q k (fun _ _ => true))
  let fetching : Bool := match x.fetch with
    | some (i, _, _) => i == k
    | none => false
  if s.sampleHold q then 6
  else if x.issued && x.lastOf k then 0
  else if v.active && x.issued && v.ready then 1
  else if fetching then 5
  else v.cls

/-- `STALL_SAMPLE` (R418, R419). -/
def dueStallSample (q : Nat) (s : State) : Option State :=
  let x := s.quad q
  let m := x.sampler
  if !x.sampleDue then none
  else
    let s' := s.setQuad q { x with sampler := { m with count := m.count + 1 }, snap := none }
    match s.sampleSlot q with
    | none => some s'
    | some k =>
      let c := s.sampleSet q k
      let w := s.sampleWarp q k
      let s' := s.setQuad q { x with sampler := { m with count := m.count + 1, next := (k + 1) % 16 }, snap := none }
      some (s'.sampleRecord q m.start
        [BitVec.ofNat 64 (field c.1 56 2), BitVec.ofNat 64 (c.2.toNat * 2 ^ 32 + s.sampleClass q k * 2 ^ 28 + k * 2 ^ 24),
         BitVec.ofNat 64 (field (w.spcOf c.2) 56 2), BitVec.ofNat 64 m.at])

/-- `STALL_SAMPLE`: as `dueStallSample` has it; while the event is not due it does not take place, and nothing changes (assumption 14). -/
def execStallSample (q : Nat) (s : State) : Res :=
  State.after s (dueStallSample q s)

end Sys2Proof.Machine
end

