-- ==== Sys2Proof/Machine/Fabric.lean ====
section
/-! DEFINITION. The Fythes fabric and the host side (spec/24 R428 to R430, R435, R437; spec/19 R378; spec/21 R406): flits,
port failures, requests of peers, host accesses and storage transfers, with their events. -/

namespace Sys2Proof.Machine

/-- `FLIT_RECEIVED` (R428): in order and good, it is delivered; else it is retried. -/
def dueFlitReceived (port : Nat) (seq : BitVec 24) (good : Bool) (s : State) : Option State :=
  let p := NMap.get Port.init s.ports port
  if 72 ≤ port ∨ !p.ok then none
  else if good && seq == p.seq then some { s with ports := NMap.set Port.init s.ports port { p with seq := p.seq + 1 } }
  else some (s.emit (.retry port p.seq))

/-- `FLIT_RECEIVED`: as `dueFlitReceived` has it; while the event is not due it does not take place, and nothing changes (assumption 14). -/
def execFlitReceived (port : Nat) (seq : BitVec 24) (good : Bool) (s : State) : Res :=
  State.after s (dueFlitReceived port seq good s)

/-- A flit of a port is one of those acknowledged up to a number; numbers are modulo 2^24 (R428). -/
def flitUpTo (port : Nat) (seq : BitVec 24) (f : Nat × BitVec 24) : Bool := f.1 == port && decide ((seq - f.2).toNat < 2 ^ 23)

/-- The peer on a port acknowledges its flits up to a number: collectives that have sent them wait for them no more (R433). -/
def State.ackFlits (s : State) (port : Nat) (seq : BitVec 24) : State :=
  let got (j : Job) : Job := { j with flits := j.flits.filter (fun f => !(flitUpTo port seq f)) }
  { s with jobs := s.jobs.map got, savedJobs := s.savedJobs.map got }

/-- A flit of the part fails its check at the peer: it and those after it go out again on their own port in sequence order (R428). -/
def State.resendFlits (s : State) (port : Nat) (seq : BitVec 24) : State :=
  let p := NMap.get Port.init s.ports port
  let n := (p.tx - seq).toNat
  if !p.ok || decide (2 ^ 23 ≤ n) then s
  else (List.range n).foldl (fun (s : State) i => s.emit (.flit port (seq + BitVec.ofNat 24 i))) s

/-- A job's flits on a port that has failed go out on the peer's other ports; with none left the job ends with `REMOTE_FAULT` (R428,
R430). -/
def State.rerouteJob (s : State) (port : Nat) (j : Job) : State :=
  let peer := (NMap.get Port.init s.ports port).peer
  let n := (j.flits.filter (fun f => f.1 == port)).length
  if n = 0 then s
  else if !(s.peerUp peer) then s.jobFault j cRemote none
  else
    let r := s.sendFlitsAs peer n
    let put (x : Job) : Job := if x.id == j.id then { x with flits := x.flits.filter (fun f => f.1 != port) ++ r.2 } else x
    { r.1 with jobs := r.1.jobs.map put, savedJobs := r.1.savedJobs.map put }

/-- `PORT_FAILURE` (R428): the port leaves its peer's set, and the remaining ports carry the traffic. -/
def duePortFailure (port : Nat) (s : State) : Option State :=
  if 72 ≤ port then none
  else
    let p := NMap.get Port.init s.ports port
    let s := { s with ports := NMap.set Port.init s.ports port { p with ok := false } }
    some ((s.jobs ++ s.savedJobs).foldl (fun (s : State) j => s.rerouteJob port j) s)

/-- `PORT_FAILURE`: as `duePortFailure` has it; while the event is not due it does not take place, and nothing changes (assumption 14). -/
def execPortFailure (port : Nat) (s : State) : Res :=
  State.after s (duePortFailure port s)

/-- A read for a party outside the part on a die: the bytes, or none. -/
def State.outsideRead (s : State) (die v : Nat) (va : Dword) (n : Nat) : State × Option (List Byte) :=
  match s.feRead die v va n with
  | (s, .ok bs) => (s, some bs)
  | (s, .error _) => (s, none)

/-- A write for a party outside the part on a die: whether it is performed, or held. The host's writes stay in order (R378): behind a
held one they are held. -/
def State.outsideWrite (s : State) (die v : Nat) (va : Dword) (d : List Byte) : State × Bool :=
  if die = dieB ∧ s.hostHeld then (s.hold { Held.of s.nextId v va (placeKey (s.translate die v va true false).2) d with gw := die }, true)
  else
    match s.feStore die v va d with
    | (s, .ok _) => (s, true)
    | (s, .error _) => (s, false)

/-- Operand of an atomic from a peer: `n` bytes of operand, then of compare value. -/
def atomData (w : Width) (d : List Byte) : Dword × Dword :=
  let n := atomBytes w
  (BitVec.ofNat 64 (leNat (d.take n)), BitVec.ofNat 64 (leNat ((d.drop n).take n)))

/-- Bytes that a peer's request touches. -/
def remoteLen (k : RemoteKind) (n : Nat) (data : List Byte) : Nat :=
  match k with
  | .load => n
  | .store => data.length
  | .atom _ w => atomBytes w

/-- The answer to a peer, with its flits (R428). -/
def State.answerPeer (s : State) (peer : BitVec 16) (d : Option (List Byte)) : State :=
  (s.sendFlits peer (flitsOf ((d.map List.length).getD 0))).emit (.remoteAnswer peer d)

/-- A request of a peer to one line of a device (R430), on the die of the port that carries it (R364), answered with bytes, or none
when it cannot be performed. A peer without a working port sends nothing. -/
def dueRemoteRequest (peer : BitVec 16) (vdev : Nat) (k : RemoteKind) (va : Dword) (n : Nat) (data : List Byte)
    (s : State) : Option State :=
  let len := remoteLen k n data
  match s.peerPort peer with
  | none => none
  | some port =>
    let die := dieOfPort port
    if len = 0 ∨ 128 < va.toNat % 128 + len then none
    else
      match k with
      | .load =>
        let r := s.outsideRead die vdev va n
        some (r.1.answerPeer peer r.2)
      | .store =>
        match s.feStore die vdev va data with
        | (s, .ok _) => some (s.answerPeer peer (some []))
        | (s, .error _) => some (s.answerPeer peer none)
      | .atom op w =>
        match s.translate die vdev va true false with
        | (s, .ok key _) =>
          let x := atomData w data
          match s.atomAt key op w x.1 x.2 with
          | (s, .ok v) => some (s.answerPeer peer (some (leBytes (atomBytes w) v.toNat)))
          | (s, .error c) => some ((s.reportLost c key).answerPeer peer none)
        | (s, _) => some (s.answerPeer peer none)

/-- A store or atomic of a peer meets a page in migration or a swath in motion (R389, R399). -/
def State.remoteHeld (s : State) (peer : BitVec 16) (vdev : Nat) (k : RemoteKind) (va : Dword) : Bool :=
  match (s.translate (((s.peerPort peer).map dieOfPort).getD dieA) vdev va (k != .load) false).2 with
  | .ok key mig => mig || (s.inMotion key).isSome
  | _ => false

/-- A peer's request waits: for its page or swath, or behind an earlier one of the peer. -/
def State.remoteWaits (s : State) (peer : BitVec 16) (vdev : Nat) (k : RemoteKind) (va : Dword) : Bool :=
  s.remoteHeld peer vdev k va || s.extQ.any (fun i => i.party == some (peer.toNat + 1))

/-- `REMOTE_REQUEST`: as `dueRemoteRequest` has it, once nothing keeps it waiting; while the event is not due it does not take
place, and nothing changes (assumption 14). -/
def execRemoteRequest (peer : BitVec 16) (vdev : Nat) (k : RemoteKind) (va : Dword) (n : Nat) (data : List Byte)
    (s : State) : Res :=
  s.arrive (.remoteRequest peer vdev k va n data) (s.remoteWaits peer vdev k va) (dueRemoteRequest peer vdev k va n data s)

/-! ### The host (R378, R400, R406, R435) -/

/-- What a kick page reads as (R406): accesses of 4 or 8 bytes only. -/
def State.kickRead (s : State) (v off n : Nat) : List Byte :=
  let x := if n ≠ 4 ∧ n ≠ 8 then 0
    else if off % 8 = 0 ∧ off < 256 then s.qHead v (off / 8) * 65536 + s.qTail v (off / 8)
    else if off = 256 then (s.contract v).pending.toNat
    else 0
  leBytes n x

/-- Store bytes for a party outside, 64-byte unit by unit; false when one of them could not be. Structural on a bound for
the number of units. -/
def State.outsideWrites (die : Nat) : Nat → State → Nat → Dword → List Byte → State × Bool
  | 0, s, _, _, _ => (s, true)
  | f + 1, s, v, va, d =>
    if d = [] then (s, true)
    else
      let n := 64 - va.toNat % 64
      let r := s.outsideWrite die v va (d.take n)
      let t := State.outsideWrites die f r.1 v (plus va n) (d.drop n)
      (t.1, r.2 && t.2)

/-- Read bytes for a party outside, unit by unit. -/
def State.outsideReads (die : Nat) : Nat → State → Nat → Dword → Nat → State × Option (List Byte)
  | 0, s, _, _, _ => (s, some [])
  | f + 1, s, v, va, n =>
    if n = 0 then (s, some [])
    else
      let a := min n (64 - va.toNat % 64)
      match s.outsideRead die v va a with
      | (s, none) => (s, none)
      | (s, some x) =>
        match State.outsideReads die f s v (plus va a) (n - a) with
        | (s, some y) => (s, some (x ++ y))
        | (s, none) => (s, none)

/-- `HOST_WRITE` (R378): a release store at `.sys` of the host into device memory; what does not translate is dropped. -/
def dueHostWrite (vdev : Nat) (va : Dword) (data : List Byte) (s : State) : Option State :=
  if !s.pcieUp then none else some (State.outsideWrites dieB (data.length + 1) s vdev va data).1

/-- `HOST_WRITE`: as `dueHostWrite` has it, after the host's earlier accesses; while the event is not due it does not take place, and
nothing changes (assumption 14). -/
def execHostWrite (vdev : Nat) (va : Dword) (data : List Byte) (s : State) : Res :=
  s.arrive (.hostWrite vdev va data) s.hostWaits (dueHostWrite vdev va data s)

/-- `HOST_READ` (R378, R400, R406): of a kick page, or an acquire load at `.sys` of device memory, whose completion is
poisoned when a sector is lost. -/
def dueHostRead (vdev : Nat) (kickPage : Bool) (va : Dword) (n : Nat) (s : State) : Option State :=
  if !s.pcieUp then none
  else if kickPage then some (s.emit (.hostData (some (s.kickRead vdev va.toNat n))))
  else
    let r := State.outsideReads dieB (n + 1) s vdev va n
    some (r.1.emit (.hostData r.2))

/-- `HOST_READ`: as `dueHostRead` has it, after the host's earlier accesses; while the event is not due it does not take place, and
nothing changes (assumption 14). -/
def execHostRead (vdev : Nat) (kickPage : Bool) (va : Dword) (n : Nat) (s : State) : Res :=
  s.arrive (.hostRead vdev kickPage va n) s.hostWaits (dueHostRead vdev kickPage va n s)

/-! ### What waits outside (R378, R389, R390, R399, R407) -/

/-- What has arrived and waits, when nothing keeps it waiting any more: the state once it has taken place. -/
def State.goes (s : State) : Input → Option State
  | .kick v n t => if s.hostHeld then none else some ((dueKick v n t s).getD s)
  | .hostWrite v va d => if s.hostHeld then none else some ((dueHostWrite v va d s).getD s)
  | .hostRead v page va n => if s.hostHeld then none else some ((dueHostRead v page va n s).getD s)
  | .remoteRequest p v k va n d => if s.remoteHeld p v k va then none else some ((dueRemoteRequest p v k va n d s).getD s)
  | .pageService v fseq leaves ok =>
    if ok && s.serviceWaits v leaves then none else some ((duePageService v fseq leaves ok s).getD s)
  | .invalidatePage v va e => if s.leafWaits v va e then none else some ((dueInvalidatePage v va e s).getD s)
  | .nvmeReport ids ok => if s.held.any (fun h => ids.contains h.id) then none else some (s.emit (.mailbox ok))
  | .collLocal v cid member data => s.localContribution v cid member data
  | .migrationCopyDone v va tier frame =>
    if s.copyWaits v va tier frame then none else some ((dueMigrationCopyDone v va tier frame s).getD s)
  | _ => none

/-- The first of those that wait to go on, each behind the earlier ones of its party; `past` have been looked at. -/
def State.extFrom (s : State) (past : List Input) : List Input → Option State
  | [] => none
  | i :: is =>
    let first : Bool := i.party.isNone || !(past.any (fun j => j.party == i.party))
    match (if first then { s with extQ := past ++ is }.goes i else none) with
    | some t => some t
    | none => s.extFrom (past ++ [i]) is

/-- Something that waits outside goes on. -/
def dueArrival (s : State) : Option State := s.extFrom [] s.extQ

/-! ### Storage (R437) -/

/-- Key of a byte of a block on a root port's controller. -/
def nvmeKey (port block i : Nat) : Nat := port * 2 ^ 80 + block * Config.nvmeBlock port + i

/-- Bytes of storage. -/
def State.nvmeBytes (s : State) (port block n : Nat) : List Byte :=
  (List.range n).map (fun i => NMap.get byte0 s.nvme (nvmeKey port block i))

/-- The report of a transfer, once its writes are performed: it waits for those that are held (R437). -/
def State.reportTransfer (s : State) (ids : List Nat) (ok : Bool) : State :=
  if ids.isEmpty then s.emit (.mailbox ok) else { s with extQ := s.extQ ++ [.nvmeReport ids ok] }

/-- `NVME_TRANSFER` (R437): Larkar moves bytes between storage and a tenant's memory, and then reports. -/
def dueNvmeTransfer (port : Nat) (toDevice : Bool) (block vdev : Nat) (va : Dword) (n : Nat) (s : State) : Option State :=
  if 2 ≤ port then none
  else if toDevice then
    let r := State.outsideWrites dieA (n + 1) s vdev va (s.nvmeBytes port block n)
    some (r.1.reportTransfer ((r.1.held.filter (fun h => decide (s.nextId ≤ h.id))).map (·.id)) r.2)
  else
    match State.outsideReads dieA (n + 1) s vdev va n with
    | (s, none) => some (s.emit (.mailbox false))
    | (s, some bs) =>
      let m := ((List.range n).zip bs).foldl (fun m (x : Nat × Byte) => NMap.set byte0 m (nvmeKey port block x.1) x.2) s.nvme
      some ({ s with nvme := m }.emit (.mailbox true))

/-- `NVME_TRANSFER`: as `dueNvmeTransfer` has it; while the event is not due it does not take place, and nothing changes (assumption 14). -/
def execNvmeTransfer (port : Nat) (toDevice : Bool) (block vdev : Nat) (va : Dword) (n : Nat) (s : State) : Res :=
  State.after s (dueNvmeTransfer port toDevice block vdev va n s)

end Sys2Proof.Machine
end

