-- ==== Sys2Proof/Machine/Boot.lean ====
section
/-! DEFINITION. Boot, attestation, ownership, power and cooling (spec/24 R438 to R442), with their events. -/

namespace Sys2Proof.Machine

/-! ### Boot (R438, R439) -/

/-- A stage verifies: Malxel's signature, and the owner's unless the owner key slot is empty. -/
def imageVerifies (b : BootImage) (ownerKey : List Byte) : Bool :=
  let d := Config.sm3 b.image
  Config.sm2Verify Config.malxelKey d b.malxelSig && (ownerKey.isEmpty || Config.sm2Verify ownerKey d b.ownerSig)

/-- A measurement register; 32 zero bytes at reset. -/
def State.measure (s : State) (i : Nat) : List Byte := NMap.get (List.replicate 32 0) s.msmt i

/-- `MSMTi` := SM3(`MSMTi` ‖ digest) (R439). -/
def State.extend (s : State) (i : Nat) (digest : List Byte) : State :=
  { s with msmt := NMap.set (List.replicate 32 0) s.msmt i (Config.sm3 (s.measure i ++ digest)) }

/-- The first source whose image verifies, with its number: flash slot A, slot B, Ethernet. -/
def firstSource (key : List Byte) (bs : List BootImage) : Option (Nat × BootImage) :=
  ((List.range 3).zip bs).find? (fun x => imageVerifies x.2 key)

/-- The part after reset: everything as reset leaves it, but for what is not the part's volatile state: the owner key slot,
storage, the boot images, what has gone out, and the model's step count and inputs. -/
def State.powerOn (s : State) : State :=
  { State.reset with tick := s.tick, sched := s.sched, outbox := s.outbox, nvme := s.nvme, ownerKey := s.ownerKey,
                     owned := s.owned, bootImgs := s.bootImgs }

/-- A later stage, verified by the one before: measured into `MSMTi`, or none. -/
def State.stage (s : State) (i : Nat) (b : Option BootImage) : Option State :=
  match b with
  | some b => if imageVerifies b s.ownerKey then some (s.extend i (Config.sm3 b.image)) else none
  | none => none

/-- Boot at a reset (R438, R439): the owner key slot is measured, and each stage verified and measured in turn. The images are the sources
of the first stage in order, then Larkar and the front-end firmware. -/
def State.boot (s : State) : State :=
  let s := s.extend 3 (Config.sm3 s.ownerKey)
  match firstSource s.ownerKey s.bootImgs with
  | none => s
  | some (n, b) =>
    let s := { s with bootSrc := n }.extend 0 (Config.sm3 (b.image ++ [BitVec.ofNat 8 n]))
    match s.stage 1 s.bootImgs[3]? with
    | none => s
    | some s =>
      match s.stage 2 s.bootImgs[4]? with
      | none => s
      | some s => { s with booted := true }

/-- `POWER_ON_RESET` (R438, R439): the part resets and boots from the images that it finds. -/
def execPowerOnReset (images : List BootImage) (s : State) : Res := .next ({ s.powerOn with bootImgs := images }.boot)

/-! ### SPDM (R440) -/

/-- An answer of Larkar: the request's place in R440's list, and the contents. -/
def State.answer (s : State) (n : Nat) (d : List Byte) : State := s.emit (.spdm (Config.spdmAnswer n d))

/-- An SPDM request, once Larkar runs, before which nobody answers it (assumption 14); one that comes out of SPDM's order is answered
with an error. -/
def State.spdmReply (s : State) (inOrder : Bool) (reply : State) : Res :=
  if !s.booted then .next s
  else if inOrder then .next reply
  else .next (s.answer 7 [])

/-- `GET_VERSION`: SPDM 1.3; it begins a negotiation. -/
def execGetVersion (s : State) : Res :=
  s.spdmReply true ({ s with spdmVersion := true, spdmCaps := false, spdmAlgs := false }.answer 0 [0x13])

/-- `GET_CAPABILITIES`. -/
def execGetCapabilities (s : State) : Res := s.spdmReply s.spdmVersion ({ s with spdmCaps := true }.answer 1 [])

/-- `NEGOTIATE_ALGORITHMS`: SM2_P256 and SM3_256 only. -/
def execNegotiateAlgorithms (sm2 sm3 : Bool) (s : State) : Res :=
  s.spdmReply (s.spdmCaps && sm2 && sm3) ({ s with spdmAlgs := true }.answer 2 [])

/-- `GET_DIGESTS`: of the certificate chain in slot 0. -/
def execGetDigests (s : State) : Res := s.spdmReply s.spdmAlgs (s.answer 3 (Config.sm3 (Config.certificate 0)))

/-- `GET_CERTIFICATE`. -/
def execGetCertificate (slot : Nat) (s : State) : Res := s.spdmReply s.spdmAlgs (s.answer 4 (Config.certificate slot))

/-- The eight measurement registers. -/
def State.measurements (s : State) : List Byte := ((List.range 8).map s.measure).flatten

/-- `CHALLENGE`: a signature over the nonce and the measurements. -/
def execChallenge (nonce : List Byte) (s : State) : Res :=
  s.spdmReply s.spdmAlgs (s.answer 5 (Config.spdmSign (nonce ++ s.measurements)))

/-- `GET_MEASUREMENTS`: one register, or all. -/
def execGetMeasurements (index : Option (BitVec 3)) (s : State) : Res :=
  s.spdmReply s.spdmAlgs (s.answer 6 (match index with
    | some i => s.measure i.toNat
    | none => s.measurements))

/-! ### Ownership (R441) -/

/-- No launch is unfinished. -/
def Launch.finished (x : Launch) : Bool := x.doneW || x.endedW

def State.idleFe (s : State) : Bool := s.launches.all Launch.finished

/-- Steps 3 and 4 of a transfer: all device memory is zeroed, the owner key slot is cleared, `MSMT3` is extended, and the
part resets, at which it boots (R438). -/
def State.passOn (s : State) : State :=
  let s := ({ s with mem := [], ownerKey := [], owned := false }).extend 3 (Config.sm3 [])
  s.powerOn.boot

/-- A transfer that waits for launches goes on once they are done (R441). -/
def State.transferStep (s : State) : State := if s.transfer && s.idleFe then s.passOn else s

/-- The owner's Larkar configuration extends `MSMT4 + i` (R439). -/
def State.larkarMeasure (s : State) (i : BitVec 2) (digest : List Byte) : State := s.extend (4 + i.toNat) digest

/-- `OWNERSHIP_TRANSFER` (R441): with the current owner's signature, no launch is taken any more, and the transfer is made
once the admitted ones are done. -/
def execOwnershipTransfer (sig : List Byte) (s : State) : Res :=
  if s.owned && Config.sm2Verify s.ownerKey (Config.sm3 Config.transferCommand) sig then
    .next ({ s with transfer := true }.emit (.mailbox true)).transferStep
  else .next (s.emit (.mailbox false))

/-- `OWNER_INSTALL` (R441): the first after a transfer needs no signature, every later one the current owner's. -/
def execOwnerInstall (key sig : List Byte) (s : State) : Res :=
  if !s.owned || Config.sm2Verify s.ownerKey (Config.sm3 key) sig then
    .next (({ s with ownerKey := key, owned := true }.extend 3 (Config.sm3 key)).emit (.mailbox true))
  else .next (s.emit (.mailbox false))

/-! ### Power and cooling (R442) -/

/-- A waiting limit comes into force once the launches admitted before it are done. -/
def State.powerStep (s : State) : State :=
  match s.pwrNext with
  | none => s
  | some w =>
    if s.pwrOld.all (fun y => s.launches.all (fun x => !(x.vdev == y.1 && x.lseq == y.2) || x.finished)) then
      { s with pwrlim := w, pwrNext := none, pwrOld := [] }
    else s

/-- `SET_PWRLIM`: a lowered limit waits for the launches admitted before it. -/
def execSetPwrlim (watts : Nat) (s : State) : Res :=
  if watts < 1200 ∨ 2600 < watts then .next (s.emit (.mailbox false))
  else if s.pwrlim ≤ watts then
    .next ({ s with pwrlim := watts, pwrNext := none, pwrOld := [] }.emit (.mailbox true))
  else
    let old := (s.launches.filter (fun x => !x.finished)).map (fun x => (x.vdev, x.lseq))
    .next (({ s with pwrNext := some watts, pwrOld := old }.powerStep).emit (.mailbox true))

/-- `COOLANT_FAULT`: coolant at more than 40 C or less than 4.0 L/min throttles the part, as long as it lasts. -/
def execCoolantFault (milliCelsius millilitres : Nat) (s : State) : Res :=
  let bad := decide (40000 < milliCelsius) || decide (millilitres < 4000)
  .next { s with coolantBad := bad, coolantLog := (s.round, bad) :: s.coolantLog }

/-- `JUNCTION_OVERTEMP`: at 115 C the part stops and drops its PCIe link. -/
def execJunctionOvertemp (celsius : Nat) (s : State) : Res :=
  .next (if 115 ≤ celsius then { s with stopped := true, pcieUp := false } else s)

/-- `POWER_THROTTLE`: the part throttles a quadrant, or ceases to. -/
def execPowerThrottle (q : Nat) (on : Bool) (s : State) : Res :=
  let x := s.quad q
  .next (s.setQuad q { x with throttled := on, slowLog := (s.round, on) :: x.slowLog })

end Sys2Proof.Machine
end

