-- ==== Sys2Proof/Machine/Dispatch.lean ====
section
/-! DEFINITION. Dispatch: the meaning of each instruction and event, one arm for each constructor of `Instr`. -/

namespace Sys2Proof.Machine

def exec (i : Instr) (s : State) : Host.Outcome State Fault Refusal :=
  match i with
  | .add h w d a b => Sys2Proof.Machine.execAdd h w d a b s
  | .sub h w d a b => Sys2Proof.Machine.execSub h w d a b s
  | .mul h w d a b => Sys2Proof.Machine.execMul h w d a b s
  | .mulh h w d a b => Sys2Proof.Machine.execMulh h w d a b s
  | .mulhn h w d a b => Sys2Proof.Machine.execMulhn h w d a b s
  | .div h w d a b => Sys2Proof.Machine.execDiv h w d a b s
  | .divn h w d a b => Sys2Proof.Machine.execDivn h w d a b s
  | .rem h w d a b => Sys2Proof.Machine.execRem h w d a b s
  | .remn h w d a b => Sys2Proof.Machine.execRemn h w d a b s
  | .minS h w d a b => Sys2Proof.Machine.execMinS h w d a b s
  | .maxS h w d a b => Sys2Proof.Machine.execMaxS h w d a b s
  | .minn h w d a b => Sys2Proof.Machine.execMinn h w d a b s
  | .maxn h w d a b => Sys2Proof.Machine.execMaxn h w d a b s
  | .andB h w d a b => Sys2Proof.Machine.execAndB h w d a b s
  | .orB h w d a b => Sys2Proof.Machine.execOrB h w d a b s
  | .xorB h w d a b => Sys2Proof.Machine.execXorB h w d a b s
  | .andn h w d a b => Sys2Proof.Machine.execAndn h w d a b s
  | .orn h w d a b => Sys2Proof.Machine.execOrn h w d a b s
  | .shl h w d a b => Sys2Proof.Machine.execShl h w d a b s
  | .shr h w d a b => Sys2Proof.Machine.execShr h w d a b s
  | .sar h w d a b => Sys2Proof.Machine.execSar h w d a b s
  | .rol h w d a b => Sys2Proof.Machine.execRol h w d a b s
  | .ror h w d a b => Sys2Proof.Machine.execRor h w d a b s
  | .mad h w d a b c => Sys2Proof.Machine.execMad h w d a b c s
  | .madh h w d a b c => Sys2Proof.Machine.execMadh h w d a b c s
  | .lea h w d a b c => Sys2Proof.Machine.execLea h w d a b c s
  | .bfx h w d a b => Sys2Proof.Machine.execBfx h w d a b s
  | .bfi h w d a b c => Sys2Proof.Machine.execBfi h w d a b c s
  | .sel h w d a b p => Sys2Proof.Machine.execSel h w d a b p s
  | .add3 h w d a b c => Sys2Proof.Machine.execAdd3 h w d a b c s
  | .mov h w d a => Sys2Proof.Machine.execMov h w d a s
  | .neg h w d a => Sys2Proof.Machine.execNeg h w d a s
  | .abs h w d a => Sys2Proof.Machine.execAbs h w d a s
  | .notB h w d a => Sys2Proof.Machine.execNotB h w d a s
  | .popc h w d a => Sys2Proof.Machine.execPopc h w d a s
  | .clz h w d a => Sys2Proof.Machine.execClz h w d a s
  | .ctz h w d a => Sys2Proof.Machine.execCtz h w d a s
  | .brev h w d a => Sys2Proof.Machine.execBrev h w d a s
  | .sext8 h w d a => Sys2Proof.Machine.execSext8 h w d a s
  | .sext16 h w d a => Sys2Proof.Machine.execSext16 h w d a s
  | .zext8 h w d a => Sys2Proof.Machine.execZext8 h w d a s
  | .zext16 h w d a => Sys2Proof.Machine.execZext16 h w d a s
  | .cmp h cond w pd cb a b => Sys2Proof.Machine.execCmp h cond w pd cb a b s
  | .fadd h rm d a b => Sys2Proof.Machine.execFadd h rm d a b s
  | .fsub h rm d a b => Sys2Proof.Machine.execFsub h rm d a b s
  | .fmul h rm d a b => Sys2Proof.Machine.execFmul h rm d a b s
  | .fmin h d a b => Sys2Proof.Machine.execFmin h d a b s
  | .fmax h d a b => Sys2Proof.Machine.execFmax h d a b s
  | .fminp h d a b => Sys2Proof.Machine.execFminp h d a b s
  | .fmaxp h d a b => Sys2Proof.Machine.execFmaxp h d a b s
  | .fscale h rm d a b => Sys2Proof.Machine.execFscale h rm d a b s
  | .hadd2 h hf rm d a b => Sys2Proof.Machine.execHadd2 h hf rm d a b s
  | .hsub2 h hf rm d a b => Sys2Proof.Machine.execHsub2 h hf rm d a b s
  | .hmul2 h hf rm d a b => Sys2Proof.Machine.execHmul2 h hf rm d a b s
  | .hmin2 h hf d a b => Sys2Proof.Machine.execHmin2 h hf d a b s
  | .hmax2 h hf d a b => Sys2Proof.Machine.execHmax2 h hf d a b s
  | .ffma h rm d a b c => Sys2Proof.Machine.execFfma h rm d a b c s
  | .ffms h rm d a b c => Sys2Proof.Machine.execFfms h rm d a b c s
  | .fnma h rm d a b c => Sys2Proof.Machine.execFnma h rm d a b c s
  | .hfma2 h hf rm d a b c => Sys2Proof.Machine.execHfma2 h hf rm d a b c s
  | .fabs h d a => Sys2Proof.Machine.execFabs h d a s
  | .fneg h d a => Sys2Proof.Machine.execFneg h d a s
  | .frnd h rm d a => Sys2Proof.Machine.execFrnd h rm d a s
  | .fclass h d a => Sys2Proof.Machine.execFclass h d a s
  | .fsat h d a => Sys2Proof.Machine.execFsat h d a s
  | .fcmp h cond f pd cb a b => Sys2Proof.Machine.execFcmp h cond f pd cb a b s
  | .cvt h p rm d a => Sys2Proof.Machine.execCvt h p rm d a s
  | .rcp h d a => Sys2Proof.Machine.execRcp h d a s
  | .rsq h d a => Sys2Proof.Machine.execRsq h d a s
  | .sqrt h d a => Sys2Proof.Machine.execSqrt h d a s
  | .exp2 h d a => Sys2Proof.Machine.execExp2 h d a s
  | .log2 h d a => Sys2Proof.Machine.execLog2 h d a s
  | .sinpi h d a => Sys2Proof.Machine.execSinpi h d a s
  | .cospi h d a => Sys2Proof.Machine.execCospi h d a s
  | .tanh h d a => Sys2Proof.Machine.execTanh h d a s
  | .sigm h d a => Sys2Proof.Machine.execSigm h d a s
  | .divf h d a b => Sys2Proof.Machine.execDivf h d a b s
  | .bra h off => Sys2Proof.Machine.execBra h off s
  | .brx h a => Sys2Proof.Machine.execBrx h a s
  | .call h off => Sys2Proof.Machine.execCall h off s
  | .callx h a => Sys2Proof.Machine.execCallx h a s
  | .ret h => Sys2Proof.Machine.execRet h s
  | .exit h => Sys2Proof.Machine.execExit h s
  | .trap h a => Sys2Proof.Machine.execTrap h a s
  | .brk h => Sys2Proof.Machine.execBrk h s
  | .jset h j => Sys2Proof.Machine.execJset h j s
  | .jadd h j => Sys2Proof.Machine.execJadd h j s
  | .jclr h j => Sys2Proof.Machine.execJclr h j s
  | .waitj h j => Sys2Proof.Machine.execWaitj h j s
  | .elect h p => Sys2Proof.Machine.execElect h p s
  | .sleepj h j => Sys2Proof.Machine.execSleepj h j s
  | .wakej h j => Sys2Proof.Machine.execWakej h j s
  | .strand win mask => Sys2Proof.Machine.execStrand win mask s
  | .shfl h mode w d a b => Sys2Proof.Machine.execShfl h mode w d a b s
  | .lpush h d a b pc => Sys2Proof.Machine.execLpush h d a b pc s
  | .lpushWarp h d a b slot => Sys2Proof.Machine.execLpushWarp h d a b slot s
  | .voteAny h pd inv q => Sys2Proof.Machine.execVoteAny h pd inv q s
  | .voteAll h pd inv q => Sys2Proof.Machine.execVoteAll h pd inv q s
  | .voteBallot h d inv q => Sys2Proof.Machine.execVoteBallot h d inv q s
  | .voteEq h pd a => Sys2Proof.Machine.execVoteEq h pd a s
  | .redx h op w d a => Sys2Proof.Machine.execRedx h op w d a s
  | .scanx h ex op w d a => Sys2Proof.Machine.execScanx h ex op w d a s
  | .matchx h w d a => Sys2Proof.Machine.execMatchx h w d a s
  | .ld h sz o d r b => Sys2Proof.Machine.execLd h sz o d r b s
  | .st h sz o r b c => Sys2Proof.Machine.execSt h sz o r b c s
  | .lds h sz o d a b => Sys2Proof.Machine.execLds h sz o d a b s
  | .sts h sz o a b c => Sys2Proof.Machine.execSts h sz o a b c s
  | .ldx h sz o core d a b => Sys2Proof.Machine.execLdx h sz o core d a b s
  | .stx h sz o core a b c => Sys2Proof.Machine.execStx h sz o core a b c s
  | .ldw h w o d r b => Sys2Proof.Machine.execLdw h w o d r b s
  | .atom g op w o sc d r b c => Sys2Proof.Machine.execAtom g op w o sc d r b c s
  | .atoms g op w o sc d a b c => Sys2Proof.Machine.execAtoms g op w o sc d a b c s
  | .fence h k sc => Sys2Proof.Machine.execFence h k sc s
  | .tagq h d a => Sys2Proof.Machine.execTagq h d a s
  | .tagi h a b c => Sys2Proof.Machine.execTagi h a b c s
  | .tagx h a => Sys2Proof.Machine.execTagx h a s
  | .cpy h out box x clo a b r => Sys2Proof.Machine.execCpy h out box x clo a b r s
  | .gath h x clo a b v => Sys2Proof.Machine.execGath h x clo a b v s
  | .coll h x clo a b => Sys2Proof.Machine.execColl h x clo a b s
  | .binit h x a b c => Sys2Proof.Machine.execBinit h x a b c s
  | .bexp h x a b c => Sys2Proof.Machine.execBexp h x a b c s
  | .barv h x a b => Sys2Proof.Machine.execBarv h x a b s
  | .bwait h x a b par => Sys2Proof.Machine.execBwait h x a b par s
  | .btest h x pd a b par => Sys2Proof.Machine.execBtest h x pd a b par s
  | .trig h => Sys2Proof.Machine.execTrig h s
  | .mma h p m n keep g a b => Sys2Proof.Machine.execMma h p m n keep g a b s
  | .mmag h p m n keep g a b v => Sys2Proof.Machine.execMmag h p m n keep g a b v s
  | .acz h => Sys2Proof.Machine.execAcz h s
  | .acld h rns f a => Sys2Proof.Machine.execAcld h rns f a s
  | .acst h rns rm f a => Sys2Proof.Machine.execAcst h rns rm f a s
  | .had h col a b => Sys2Proof.Machine.execHad h col a b s
  | .qnt h given isB f a => Sys2Proof.Machine.execQnt h given isB f a s
  | .snorm h isB v m => Sys2Proof.Machine.execSnorm h isB v m s
  | .salias g toff va vb => Sys2Proof.Machine.execSalias g toff va vb s
  | .spot g toff m n bat gang a b c => Sys2Proof.Machine.execSpot g toff m n bat gang a b c s
  | .sstat h d => Sys2Proof.Machine.execSstat h d s
  | .srr h r d => Sys2Proof.Machine.execSrr h r d s
  | .srw h r b => Sys2Proof.Machine.execSrw h r b s
  | .cede h => Sys2Proof.Machine.execCede h s
  | .cedeHold h => Sys2Proof.Machine.execCedeHold h s
  | .cedeOpen h => Sys2Proof.Machine.execCedeOpen h s
  | .saveHold h a b => Sys2Proof.Machine.execSaveHold h a b s
  | .saveScr h a b => Sys2Proof.Machine.execSaveScr h a b s
  | .saveAcc h => Sys2Proof.Machine.execSaveAcc h s
  | .saveTag h => Sys2Proof.Machine.execSaveTag h s
  | .trapretRestart h => Sys2Proof.Machine.execTrapretRestart h s
  | .trapretSkip h => Sys2Proof.Machine.execTrapretSkip h s
  | .watchOff h c => Sys2Proof.Machine.execWatchOff h c s
  | .watchW h a b c => Sys2Proof.Machine.execWatchW h a b c s
  | .watchRw h a b c => Sys2Proof.Machine.execWatchRw h a b c s
  | .profStall h a b c => Sys2Proof.Machine.execProfStall h a b c s
  | .profStop h => Sys2Proof.Machine.execProfStop h s
  | .profMem h a b c => Sys2Proof.Machine.execProfMem h a b c s
  | .nop h => Sys2Proof.Machine.execNop h s
  | .thset h d a b => Sys2Proof.Machine.execThset h d a b s
  | .thdrop h a => Sys2Proof.Machine.execThdrop h a s
  | .addC d a b => Sys2Proof.Machine.execAddC d a b s
  | .subC d a b => Sys2Proof.Machine.execSubC d a b s
  | .mulC d a b => Sys2Proof.Machine.execMulC d a b s
  | .mulhC d a b => Sys2Proof.Machine.execMulhC d a b s
  | .mulhnC d a b => Sys2Proof.Machine.execMulhnC d a b s
  | .minC d a b => Sys2Proof.Machine.execMinC d a b s
  | .maxC d a b => Sys2Proof.Machine.execMaxC d a b s
  | .minnC d a b => Sys2Proof.Machine.execMinnC d a b s
  | .maxnC d a b => Sys2Proof.Machine.execMaxnC d a b s
  | .andC d a b => Sys2Proof.Machine.execAndC d a b s
  | .orC d a b => Sys2Proof.Machine.execOrC d a b s
  | .xorC d a b => Sys2Proof.Machine.execXorC d a b s
  | .andnC d a b => Sys2Proof.Machine.execAndnC d a b s
  | .shlC d a b => Sys2Proof.Machine.execShlC d a b s
  | .shrC d a b => Sys2Proof.Machine.execShrC d a b s
  | .sarC d a b => Sys2Proof.Machine.execSarC d a b s
  | .rolC d a b => Sys2Proof.Machine.execRolC d a b s
  | .rorC d a b => Sys2Proof.Machine.execRorC d a b s
  | .add64C d a b => Sys2Proof.Machine.execAdd64C d a b s
  | .sub64C d a b => Sys2Proof.Machine.execSub64C d a b s
  | .movC d a => Sys2Proof.Machine.execMovC d a s
  | .mov64C d a => Sys2Proof.Machine.execMov64C d a s
  | .negC d a => Sys2Proof.Machine.execNegC d a s
  | .notC d a => Sys2Proof.Machine.execNotC d a s
  | .popcC d a => Sys2Proof.Machine.execPopcC d a s
  | .clzC d a => Sys2Proof.Machine.execClzC d a s
  | .ctzC d a => Sys2Proof.Machine.execCtzC d a s
  | .sext8C d a => Sys2Proof.Machine.execSext8C d a s
  | .sext16C d a => Sys2Proof.Machine.execSext16C d a s
  | .zext8C d a => Sys2Proof.Machine.execZext8C d a s
  | .zext16C d a => Sys2Proof.Machine.execZext16C d a s
  | .faddC d a b => Sys2Proof.Machine.execFaddC d a b s
  | .fsubC d a b => Sys2Proof.Machine.execFsubC d a b s
  | .fmulC d a b => Sys2Proof.Machine.execFmulC d a b s
  | .fminC d a b => Sys2Proof.Machine.execFminC d a b s
  | .fmaxC d a b => Sys2Proof.Machine.execFmaxC d a b s
  | .fminpC d a b => Sys2Proof.Machine.execFminpC d a b s
  | .fmaxpC d a b => Sys2Proof.Machine.execFmaxpC d a b s
  | .fscaleC d a b => Sys2Proof.Machine.execFscaleC d a b s
  | .hadd2F16C d a b => Sys2Proof.Machine.execHadd2F16C d a b s
  | .hsub2F16C d a b => Sys2Proof.Machine.execHsub2F16C d a b s
  | .hmul2F16C d a b => Sys2Proof.Machine.execHmul2F16C d a b s
  | .hadd2Bf16C d a b => Sys2Proof.Machine.execHadd2Bf16C d a b s
  | .hsub2Bf16C d a b => Sys2Proof.Machine.execHsub2Bf16C d a b s
  | .hmul2Bf16C d a b => Sys2Proof.Machine.execHmul2Bf16C d a b s
  | .fabsC d a => Sys2Proof.Machine.execFabsC d a s
  | .fnegC d a => Sys2Proof.Machine.execFnegC d a s
  | .rcpC d a => Sys2Proof.Machine.execRcpC d a s
  | .rsqC d a => Sys2Proof.Machine.execRsqC d a s
  | .sqrtC d a => Sys2Proof.Machine.execSqrtC d a s
  | .exp2C d a => Sys2Proof.Machine.execExp2C d a s
  | .log2C d a => Sys2Proof.Machine.execLog2C d a s
  | .tanhC d a => Sys2Proof.Machine.execTanhC d a s
  | .sigmC d a => Sys2Proof.Machine.execSigmC d a s
  | .divfC d a b => Sys2Proof.Machine.execDivfC d a b s
  | .cvtF32I32C d a => Sys2Proof.Machine.execCvtF32I32C d a s
  | .cvtI32F32C d a => Sys2Proof.Machine.execCvtI32F32C d a s
  | .cvtF32F16C d a => Sys2Proof.Machine.execCvtF32F16C d a s
  | .cvtF16F32C d a => Sys2Proof.Machine.execCvtF16F32C d a s
  | .shflIdxC d a b => Sys2Proof.Machine.execShflIdxC d a b s
  | .shflXorC d a b => Sys2Proof.Machine.execShflXorC d a b s
  | .braC off => Sys2Proof.Machine.execBraC off s
  | .exitC => Sys2Proof.Machine.execExitC s
  | .fetchReturn q => Sys2Proof.Machine.execFetchReturn q s
  | .sfuResult id => Sys2Proof.Machine.execSfuResult id s
  | .loadResult id => Sys2Proof.Machine.execLoadResult id s
  | .atomicResult id => Sys2Proof.Machine.execAtomicResult id s
  | .tagqResult id => Sys2Proof.Machine.execTagqResult id s
  | .matrixUnitDone id => Sys2Proof.Machine.execMatrixUnitDone id s
  | .thsetComplete id => Sys2Proof.Machine.execThsetComplete id s
  | .translationWalkDone die vdev va => Sys2Proof.Machine.execTranslationWalkDone die vdev va s
  | .emulationDone id => Sys2Proof.Machine.execEmulationDone id s
  | .runAheadIssue w => Sys2Proof.Machine.execRunAheadIssue w s
  | .windowFill q => Sys2Proof.Machine.execWindowFill q s
  | .windowExchange q => Sys2Proof.Machine.execWindowExchange q s
  | .windowExchangeDone q => Sys2Proof.Machine.execWindowExchangeDone q s
  | .pageService vdev fseq leaves ok => Sys2Proof.Machine.execPageService vdev fseq leaves ok s
  | .engineJobStart tract job => Sys2Proof.Machine.execEngineJobStart tract job s
  | .engineJobAccess tract job n => Sys2Proof.Machine.execEngineJobAccess tract job n s
  | .engineJobComplete tract job => Sys2Proof.Machine.execEngineJobComplete tract job s
  | .launchRecord src rec => Sys2Proof.Machine.execLaunchRecord src rec s
  | .kick vdev n tail => Sys2Proof.Machine.execKick vdev n tail s
  | .launchFrame port mac payload => Sys2Proof.Machine.execLaunchFrame port mac payload s
  | .dispatchParcel vdev => Sys2Proof.Machine.execDispatchParcel vdev s
  | .stagingDone vdev lseq pseq => Sys2Proof.Machine.execStagingDone vdev lseq pseq s
  | .parcelDone vdev lseq pseq => Sys2Proof.Machine.execParcelDone vdev lseq pseq s
  | .overrun vdev lseq pseq => Sys2Proof.Machine.execOverrun vdev lseq pseq s
  | .hang vdev lseq pseq => Sys2Proof.Machine.execHang vdev lseq pseq s
  | .sliceEnd vdev => Sys2Proof.Machine.execSliceEnd vdev s
  | .sliceStart vdev => Sys2Proof.Machine.execSliceStart vdev s
  | .preemptHandlerEntry w => Sys2Proof.Machine.execPreemptHandlerEntry w s
  | .forcedSave w => Sys2Proof.Machine.execForcedSave w s
  | .resurveyStart die => Sys2Proof.Machine.execResurveyStart die s
  | .resurveyScanEnd core pass => Sys2Proof.Machine.execResurveyScanEnd core pass s
  | .stallSample q => Sys2Proof.Machine.execStallSample q s
  | .invalidatePage vdev va entry => Sys2Proof.Machine.execInvalidatePage vdev va entry s
  | .invalidationComplete vdev va => Sys2Proof.Machine.execInvalidationComplete vdev va s
  | .migrationCopyDone vdev va tier frame => Sys2Proof.Machine.execMigrationCopyDone vdev va tier frame s
  | .frameFree tier frame big => Sys2Proof.Machine.execFrameFree tier frame big s
  | .scrubDone tier frame => Sys2Proof.Machine.execScrubDone tier frame s
  | .unitFailing cxl unit => Sys2Proof.Machine.execUnitFailing cxl unit s
  | .evacuationDone cxl => Sys2Proof.Machine.execEvacuationDone cxl s
  | .swathStart cxl => Sys2Proof.Machine.execSwathStart cxl s
  | .swathComplete cxl swath => Sys2Proof.Machine.execSwathComplete cxl swath s
  | .parityWalk group => Sys2Proof.Machine.execParityWalk group s
  | .partitionWrite core own div => Sys2Proof.Machine.execPartitionWrite core own div s
  | .contractWrite c => Sys2Proof.Machine.execContractWrite c s
  | .registerWrite vdev r v => Sys2Proof.Machine.execRegisterWrite vdev r v s
  | .haltGroup vdev lseq g => Sys2Proof.Machine.execHaltGroup vdev lseq g s
  | .edit w e => Sys2Proof.Machine.execEdit w e s
  | .releaseGroup vdev lseq g => Sys2Proof.Machine.execReleaseGroup vdev lseq g s
  | .releaseThread vdev fseq => Sys2Proof.Machine.execReleaseThread vdev fseq s
  | .precopyRound vdev pages => Sys2Proof.Machine.execPrecopyRound vdev pages s
  | .migrationStop vdev => Sys2Proof.Machine.execMigrationStop vdev s
  | .migrationResume c queues pend rec => Sys2Proof.Machine.execMigrationResume c queues pend rec s
  | .flitReceived port seq good => Sys2Proof.Machine.execFlitReceived port seq good s
  | .portFailure port => Sys2Proof.Machine.execPortFailure port s
  | .remoteRequest peer vdev k va n data => Sys2Proof.Machine.execRemoteRequest peer vdev k va n data s
  | .collContribution tract job member data => Sys2Proof.Machine.execCollContribution tract job member data s
  | .hostWrite vdev va data => Sys2Proof.Machine.execHostWrite vdev va data s
  | .hostRead vdev kickPage va n => Sys2Proof.Machine.execHostRead vdev kickPage va n s
  | .nvmeTransfer port toDevice block vdev va n => Sys2Proof.Machine.execNvmeTransfer port toDevice block vdev va n s
  | .setPwrlim watts => Sys2Proof.Machine.execSetPwrlim watts s
  | .ownershipTransfer sig => Sys2Proof.Machine.execOwnershipTransfer sig s
  | .ownerInstall key sig => Sys2Proof.Machine.execOwnerInstall key sig s
  | .getVersion => Sys2Proof.Machine.execGetVersion s
  | .getCapabilities => Sys2Proof.Machine.execGetCapabilities s
  | .negotiateAlgorithms sm2 sm3 => Sys2Proof.Machine.execNegotiateAlgorithms sm2 sm3 s
  | .getDigests => Sys2Proof.Machine.execGetDigests s
  | .getCertificate slot => Sys2Proof.Machine.execGetCertificate slot s
  | .challenge nonce => Sys2Proof.Machine.execChallenge nonce s
  | .getMeasurements index => Sys2Proof.Machine.execGetMeasurements index s
  | .powerOnReset images => Sys2Proof.Machine.execPowerOnReset images s
  | .coolantFault milliCelsius millilitres => Sys2Proof.Machine.execCoolantFault milliCelsius millilitres s
  | .junctionOvertemp celsius => Sys2Proof.Machine.execJunctionOvertemp celsius s
  | .powerThrottle q on => Sys2Proof.Machine.execPowerThrottle q on s
  | .debuggerAttach vdev => Sys2Proof.Machine.execDebuggerAttach vdev s
  | .closureOperationPerformed id => Sys2Proof.Machine.execClosureOperationPerformed id s
  | .storePerformed id => Sys2Proof.Machine.execStorePerformed id s
  | .thdropAnswer id => Sys2Proof.Machine.execThdropAnswer id s
  | .watchSlotInstalled id => Sys2Proof.Machine.execWatchSlotInstalled id s

end Sys2Proof.Machine
end

