-- ==== Sys2Proof/Machine/Choose.lean ====
section
/-! DEFINITION. What the part does next: whose clock it is, the events that can take place in it, the set that a quadrant
issues (spec/07 R159 to R164, spec/02 R30, R31), and what a clock counts (spec/00 R11, R12; spec/17 R339, R342; spec/18 R359,
R361). One round gives each quadrant with work one clock of 850 MHz, and the policy core its share of 500 MHz (R3). -/

namespace Sys2Proof.Machine

/-- An event: the state after it, or none while it is not due. -/
abbrev Event := State → Option State

/-- The first of some events that can take place: the state after it. -/
def State.firstOf (s : State) (es : List Event) : Option State := es.findSome? (fun e => e s)

/-! ### Clocks (R159) -/

/-- A parcel runs on without a warp: all have exited, and jobs or stores of it still run (R339, R361). -/
def State.runsBare (s : State) (x : Launch) (p : Parcel) : Bool :=
  p.state == .running && (s.contract x.vdev).rights && (s.warpsOf x.vdev x.lseq p.pseq).isEmpty &&
    !(s.saved.any (fun y => y.warp.ofParcel x.vdev x.lseq p.pseq))

/-- The quadrant whose clocks are the parcel's when no warp of it stands. -/
def Parcel.firstQuad (p : Parcel) : Nat := (p.quadsAt.headD (0, 0)).2

/-- Parcels without a warp that still run: device, `LSEQ`, parcel. -/
def State.bareParcels (s : State) : List (Nat × Word × Parcel) :=
  (s.launches.map (fun x => (x.parcels.filter (s.runsBare x)).map (fun p => (x.vdev, x.lseq, p)))).flatten

/-- Quadrants with work: a warp stands there, or an operation issued there is in flight, or a parcel's clocks run there. -/
def State.workQuads (s : State) : List Nat :=
  s.resident.map quadOfWarp ++ s.flights.map (fun (f : Flight) => f.iss.quad) ++ s.bareParcels.map (fun y => y.2.2.firstQuad)

/-- Whose clock comes next, counting quadrants from `q` upwards. -/
def State.turnFrom (s : State) (q : Nat) : Nat :=
  match minBy (fun k => k) (s.workQuads.filter (fun k => decide (q ≤ k))) with
  | some k => k + 1
  | none => 0

/-- Sample points that have gone by in a quadrant without a warp are passed over (R418). -/
def Sampler.skip (m : Sampler) (clock : Nat) : Sampler :=
  if m.mode = 1 then { m with count := max m.count ((clock - 1 - m.start) / m.per) } else m

/-- What a log of changes, the latest first, says of a round. -/
def logAt (log : List (Nat × Bool)) (r : Nat) : Bool := ((log.find? (fun e => decide (e.1 ≤ r))).map (·.2)).getD false

/-- Clocks of a quadrant in the `n` rounds from `r` on: one for each round in which throttling does not hold it (R159, R442). -/
def State.clocksIn (s : State) (q r n : Nat) : Nat :=
  let x := s.quad q
  if x.slowLog.isEmpty && s.coolantLog.isEmpty then n
  else ((List.range n).filter (fun i =>
    !((logAt x.slowLog (r + i) || logAt s.coolantLog (r + i)) && Config.heldClock q (r + i)))).length

/-- A quadrant counts the clocks in which it had no work. -/
def State.catchUp (s : State) (q : Nat) : State :=
  let x := s.quad q
  if s.round ≤ x.seen then s
  else
    let c := x.clock + s.clocksIn q x.seen (s.round - x.seen)
    s.setQuad q { x with clock := c, seen := s.round, sampler := x.sampler.skip c }

/-! ### What a clock counts -/

/-- A thread parked on a record. -/
def Thread.isParked (t : Thread) : Bool :=
  match t.stat with
  | .parked _ _ => true
  | _ => false

def Warp.anyParked (w : Warp) : Bool := (laneList w.live).any (fun l => (w.thread l).isParked)

/-- A running collective waits on a member that is descheduled (R434): one on this part whose device holds no issue rights, or
one elsewhere. -/
def State.awaitsDescheduled (s : State) (j : Job) : Bool :=
  let d := j.desc
  j.kind == .coll && j.state == .running && (List.range (collN d)).any (fun i =>
    !(j.landed.contains i) && (collOp d != 3 || i == 0) &&
    (if (collMember d i).1 == (collMember d (collMe d)).1 then !(s.contract (collMember d i).2).rights
     else Config.memberDescheduled s.pclk))

/-- A clock of the parcel is progress-eligible (R361). -/
def State.progresses (s : State) (p : Parcel) (v : Nat) (l : Word) : Bool :=
  let mine (j : Job) : Bool := j.vdev == v && j.lseq == l && j.pseq == p.pseq
  let qs := p.quadsAt.map (·.2)
  (s.contract v).rights && !(Config.shareThrottled v s.pclk) && !(qs.any (fun q => (s.quad q).req.isSome || (s.quad q).throttled)) && !s.coolantBad &&
  !(s.jobs.any (fun j => mine j && j.state == .parked)) &&
  !((s.warpsOf v l p.pseq).any (fun gw => (s.warp gw).anyParked)) &&
  !(s.flights.any (fun f => f.kind == .emulate && f.own == (v, l, p.pseq))) &&
  !(s.jobs.any (fun j => mine j && s.awaitsDescheduled j))

/-- One clock of a quadrant in a parcel's counts: `lq` its local number, `first` whether it is the lowest quadrant on which the
parcel has warps, whose clocks are the parcel's (R339, R342, R361). -/
def Parcel.count (p : Parcel) (lq : Nat) (first issued eligible : Bool) : Parcel :=
  { p with busy := if issued then NMap.set 0 p.busy lq (NMap.get 0 p.busy lq + 1) else p.busy,
           idle := if issued then p.idle else NMap.set 0 p.idle lq (NMap.get 0 p.idle lq + 1),
           clocks := if first then p.clocks + 1 else p.clocks,
           progress := if issued then 0 else if first && eligible then p.progress + 1 else p.progress }

/-- A clock of a quadrant in the counts of the parcel whose warps stand there. -/
def State.countWarps (s : State) (q : Nat) (issued : Bool) : State :=
  match s.resident.find? (fun gw => quadOfWarp gw == q) with
  | none => s
  | some gw =>
    let w := s.warp gw
    let first := (s.warpsOf w.vdev w.lseq w.pseq).all (fun g => decide (q ≤ quadOfWarp g))
    let core := coreOfQuad q
    let begun := (s.core core).begun
    s.modParcel w.vdev w.lseq w.pseq (fun p =>
      let p := p.count w.lq first issued (s.progresses p w.vdev w.lseq)
      if issued then { p with ranOn := NMap.put p.ranOn core begun } else p)

/-- A clock of a quadrant in the counts of the parcels whose warps stand there, and of those that run on without a warp, whose clocks are not
those of R342. -/
def State.countClock (s : State) (q : Nat) (issued : Bool) : State :=
  (s.bareParcels.filter (fun y => y.2.2.firstQuad == q)).foldl (fun (s : State) y =>
    s.modParcel y.1 y.2.1 y.2.2.pseq (fun p =>
      { p.count (p.quadsAt.headD (0, 0)).1 true false (s.progresses p y.1 y.2.1) with idle := p.idle }))
    (s.countWarps q issued)

/-- A clock of a quadrant ends: it issued, or not; and it decides on an exchange (R166, R168). -/
def State.passClock (s : State) (q : Nat) (issued : Bool) : State :=
  let s := s.setQuad q { s.quad q with issued := issued }
  let d := s.decided q
  let x := s.quad q
  let s := s.setQuad q { x with clock := x.clock + 1, seen := s.round + 1, outSnap := d }
  let s := s.countClock q issued
  { s with turn := s.turnFrom (q + 1) }

/-- A quadrant that throttling holds gets no clock. -/
def State.holdClock (s : State) (q : Nat) : State :=
  let x := s.quad q
  let s := s.setQuad q { x with seen := s.round + 1, heldAt := some x.clock }
  { s with turn := s.turnFrom (q + 1) }

/-- Some thread or job of the launch waits on an agent outside the part's own scheduling (R12). -/
def State.outsideWait (s : State) (x : Launch) : Bool :=
  let of (w : Warp) : Bool := w.vdev == x.vdev && w.lseq == x.lseq
  let waits (w : Warp) : Bool := of w && (w.anyParked || !w.halts.isEmpty)
  s.resident.any (fun gw => waits (s.warp gw)) || s.saved.any (fun (y : Saved) => waits y.warp) ||
  s.jobs.any (fun j => j.vdev == x.vdev && j.lseq == x.lseq && (j.state == .parked || s.jobOnMig j)) ||
  s.held.any (fun h => h.vdev == x.vdev && h.lseq == x.lseq && h.lane != 32 && h.swath.isNone) ||
  (s.contract x.vdev).stop

/-- A launch in a policy-core clock: its age counts until its last record is written (R341), its budget until DONE (R11, R12). -/
def Launch.tick (x : Launch) (waits : Bool) : Launch :=
  if x.settledW || (x.endedW && x.parcels.all (fun p => p.state != .done)) then x
  else { x with clk := x.clk + 1, used := if x.finished || waits then x.used else x.used + 1 }

/-- One policy-core clock: the launches age, saved images that have changed are written (R352), and what waits for launches or a stop
to finish goes on (R411, R441, R442). -/
def State.policyClock (s : State) : State :=
  let s := { s with pclk := s.pclk + 1, launches := s.launches.map (fun (x : Launch) => x.tick (s.outsideWait x)) }
  s.writeImages.migrationStep.powerStep.transferStep

/-! ### Units outside the quadrants -/

/-- Events of the engine jobs, the parcels, resurvey, scrub, replat, invalidation, parity and what waits outside that may be
due. -/
def State.globalEvents (s : State) : List Event :=
  [dueArrival] ++
  (s.jobs.map (fun (j : Job) => match j.state with
    | .queued => [dueEngineJobStart j.tract j.id]
    | .running => [dueEngineJobAccess j.tract j.id 4096, dueEngineJobComplete j.tract j.id]
    | .parked => [])).flatten ++
  s.contracts.map (fun (c : Nat × Contract) => dueDispatchParcel c.1) ++
  (s.launches.map (fun (x : Launch) => (x.parcels.map (fun (p : Parcel) => match p.state with
    | .staging => [dueStagingDone x.vdev x.lseq p.pseq]
    | .running => [dueOverrun x.vdev x.lseq p.pseq, dueHang x.vdev x.lseq p.pseq, dueParcelDone x.vdev x.lseq p.pseq]
    | _ => [])).flatten)).flatten ++
  (List.range 8).map dueResurveyStart ++
  (s.cores.filter (fun (c : Nat × Core) => c.2.survey == .draining)).map (fun (c : Nat × Core) =>
    dueResurveyScanEnd c.1 (Config.scanPasses c.1 c.2.begun)) ++
  s.scrubHeads.map (fun (f : Frame) => dueScrubDone (BitVec.ofNat 2 f.tier) (BitVec.ofNat 48 f.addr)) ++
  ([false, true].map (fun c => dueSwathStart c :: (s.tier c).inFlight.map (dueSwathComplete c))).flatten ++
  s.inval.map (fun (x : Inval) => dueInvalidationComplete x.vdev x.page) ++
  ((s.badW.map s.parityGroup).eraseDups).map dueParityWalk

/-- Let a policy-core clock pass, or not. -/
def State.elapse (s : State) (due : Bool) : State := if due then s.policyClock else s

/-- A list turned so that its n-th element comes first. -/
def rotated {α : Type} (n : Nat) (xs : List α) : List α := xs.drop (n % xs.length) ++ xs.take (n % xs.length)

/-- A policy-core clock passes in this round: ten in seventeen rounds, 500 MHz to 850 MHz (R3). -/
def State.policyDue (s : State) : Bool := decide (s.round * 10 / 17 < (s.round + 1) * 10 / 17)

/-- A round of the units outside the quadrants: one event, tried in rotation, a clock of the cores' scans, and the policy core's
clock when it is due. -/
def State.globalTurn (s : State) : State :=
  let s := ((s.firstOf (rotated s.round s.globalEvents)).getD s).scanClock
  let s := { s with round := s.round + 1 }.elapse s.policyDue
  { s with turn := s.turnFrom 0 }

/-! ### A quadrant's clock -/

/-- The event that ends an operation in flight. -/
def Flight.event (f : Flight) : Event :=
  match f.kind with
  | .sfu => dueSfuResult f.id
  | .load => dueLoadResult f.id
  | .atomic => dueAtomicResult f.id
  | .tagq => dueTagqResult f.id
  | .matrix => dueMatrixUnitDone f.id
  | .thset => dueThsetComplete f.id
  | .emulate => dueEmulationDone f.id
  | .closure => dueClosureOperationPerformed f.id
  | .store => dueStorePerformed f.id
  | .thdrop => dueThdropAnswer f.id
  | .watch => dueWatchSlotInstalled f.id

/-- The set that waits on fetch, as it stands now (R31). -/
def State.fetching (s : State) (q : Nat) : Option (Nat × Mask × Dword) :=
  let x := s.quad q
  match x.fetch with
  | none => none
  | some (k, m, pc) =>
    if x.active.contains k then
      ((s.sets (16 * q + k)).find? (fun y => y.1 == pc && (y.2.1 &&& m) != 0)).map (fun y => (k, y.2.1, pc))
    else none

/-- Events of a quadrant that come before the choice: samples, results whose clock is exact, exchanges decided in the clock that
has passed, pre-emption, fills, fetches, results whose delay is open (R457), each of which waits some clocks, and partial issue
(R213). -/
def State.quadEvents (s : State) (q : Nat) : List Event :=
  let x := s.quad q
  let fs := s.flights.filter (fun (f : Flight) => f.iss.quad == q)
  let ws := s.resident.filter (fun gw => quadOfWarp gw == q)
  (if x.sampler.mode = 1 then [dueStallSample q] else []) ++
  (fs.filter (fun f => f.exact && decide (f.due < x.clock))).map Flight.event ++
  [dueWindowExchange q, dueWindowExchangeDone q] ++
  ws.map dueForcedSave ++ ws.map duePreemptHandlerEntry ++ [dueWindowFill q] ++
  (if (s.fetching q).isSome then [dueFetchReturn q] else []) ++
  (fs.filter (fun f => !f.exact && decide (f.iss.clk + 5 + f.id % 8 ≤ x.clock))).map Flight.event ++
  (ws.filter (fun gw => !(s.warp gw).wides.isEmpty)).map duePartialIssue

/-- Issue of a set begins: its latches go when it is not the set that issued last (R30), its stamp and the quadrant's clock move
on. -/
def State.beginIssue (s : State) (q k : Nat) (m : Mask) (pc : Dword) (words : Nat) : State :=
  let x := s.quad q
  let gw := 16 * q + k
  let same : Bool := match x.cur with
    | some (i, n, _) => i == k && n == m
    | none => false
  let w := s.warp gw
  let w := if same then w else w.loseLatches m
  let w := w.mapThreads m (fun _ t => { t with stat := .ready })
  let s := s.setWarp gw { w with last := some x.clock }
  let s := s.setQuad q { x with cur := some (k, m, pc), fetch := none }
  let i : Issue := { quad := q, slot := k, mask := m, pc := pc, words := words, clk := x.clock }
  { s.passClock q true with iss := i }

/-- Lanes that stop at a breakpoint before the instruction (R414). -/
def State.breakLanes (s : State) (gw : Nat) (m : Mask) (pc : Dword) : Mask :=
  let w := s.warp gw
  if (s.contract w.vdev).breaksAt w.lseq pc then maskOf (fun l => hasLane m l && !((w.thread l).bpPass == some pc)) else 0

/-- The threads that may pass the breakpoint at a PC have passed it (R414). -/
def State.passBreaks (s : State) (gw : Nat) (m : Mask) (pc : Dword) : State :=
  let w := s.warp gw
  let p := maskOf (fun l => hasLane m l && (w.thread l).bpPass == some pc)
  if p = 0 then s else s.setWarp gw (w.mapThreads p (fun _ t => { t with bpPass := none }))

/-- The lanes go on waiting at their instruction. -/
def State.stillWaits (s : State) (gw : Nat) (m : Mask) : Bool :=
  match ((s.warp gw).thread (lowest m)).stat with
  | .stalled n => decide (n ≤ 1)
  | _ => false

/-- What comes of a set that is to issue: its words are missing, it waits at its instruction and has not issued, or it has issued. -/
inductive Attempt where
  | miss
  | waits (s : State)
  | done (r : Res)

/-- A set comes to issue: it stops at a breakpoint, traps on words that are no instruction, meets a word that cannot be repaired, or
its instruction is executed (R31, R58, R59, R357, R414). -/
def State.attempt (s : State) (q k : Nat) (m : Mask) (pc : Dword) : Attempt :=
  let gw := 16 * q + k
  match s.fetch (coreOfQuad q) (s.warp gw).vdev pc with
  | .miss _ _ => .miss
  | .words ws =>
    let stop := s.breakLanes gw m pc
    let t := s.beginIssue q k m pc ws.length
    if stop != 0 then .done (.next (t.take (Exc.of 0x21 stop)))
    else
      match decode ws with
      | .error b => .done (.next (t.take (Exc.of (trapCause b) m)))
      | .ok i =>
        match t.meetIssue i with
        | none => .done (.next (t.take (Exc.of cUncorrectable m)))
        | some t =>
          match exec i t with
          | .next u => if u.stillWaits gw m then .waits u else .done (.next (u.passBreaks gw m pc))
          | r => .done r

/-- A set that waits at its instruction has not issued (R161): the clock is not used, and the quadrant's `cur`, the warp's stamp and
its latches are as they were in `s`. -/
def State.keepWait (u s : State) (q k : Nat) : State :=
  let gw := 16 * q + k
  let x := s.quad q
  let w := s.warp gw
  let v := u.setQuad q { u.quad q with clock := x.clock, seen := x.seen, cur := x.cur, fetch := x.fetch, issued := x.issued,
                                       outSnap := x.outSnap }
  { v.setWarp gw { u.warp gw with last := w.last, latchV := w.latchV } with
    launches := s.launches, turn := s.turn, iss := s.iss }

/-- Shadow instructions of a quadrant's run-ahead sets, for a clock in which no set issues: the set that stopped earliest first,
ties to the lower slot (R216); a pre-emption request stops those of its warps (R217, R344). -/
def State.runEvents (s : State) (q : Nat) : List Event :=
  let rs := s.runs.filter (fun (r : Nat × Run) => quadOfWarp r.1 == q && !(s.asked r.1))
  let ks := rs.foldl (fun (ks : List Nat) (r : Nat × Run) => insertNat (r.2.since * 16 + r.1 % 16) ks) []
  ks.map (fun k => dueRunAheadIssue (16 * q + k % 16))

/-- No set issues in this clock: a run-ahead set may. -/
def State.idleClock (s : State) (q : Nat) : State :=
  let s := if (s.fetching q).isSome then s else s.setQuad q { s.quad q with fetch := none }
  ((s.firstOf (s.runEvents q)).getD s).passClock q false

/-- The set whose words are missing is chosen, and the quadrant waits for them (R31). -/
def State.awaitFetch (s : State) (q k : Nat) (m : Mask) (pc : Dword) : State :=
  (s.setQuad q { s.quad q with fetch := some (k, m, pc) }).idleClock q

/-- What the quadrant issues in this clock when no fetch is pending: the first set in the order of R163 that does not wait at its
instruction. `tried` wait there; structural on a bound for the number of sets. -/
def State.issueFree (s : State) (q : Nat) : Nat → List (Nat × Mask × Dword) → Res
  | 0, _ => .next (s.idleClock q)
  | f + 1, tried =>
    match (s.order q).find? (fun y => !(tried.contains y)) with
    | none => .next (s.idleClock q)
    | some (k, m, pc) =>
      match s.attempt q k m pc with
      | .miss => .next (s.awaitFetch q k m pc)
      | .waits u => (u.keepWait s q k).issueFree q f ((k, m, pc) :: tried)
      | .done r => r

/-- Sets that a quadrant's window can hold, and one more: of four warps of 32 threads. -/
def maxSets : Nat := 129

/-- What the quadrant issues in this clock, once no event is left: the set whose fetch is pending or has returned (R31), if
nothing else keeps it from issuing. -/
def State.issueTurn (s : State) (q : Nat) : Res :=
  match s.fetching q with
  | none => s.issueFree q maxSets []
  | some (k, m, pc) =>
    let free := s.setQuad q { s.quad q with fetch := none }
    if !(s.eligible (16 * q + k) pc m) then free.issueFree q maxSets []
    else
      match s.attempt q k m pc with
      | .miss => .next (s.awaitFetch q k m pc)
      | .waits u => (u.keepWait free q k).issueFree q maxSets [(k, m, pc)]
      | .done r => r

/-- Where the quadrant's sampler takes a sample of the present clock, what the clock finds before its issue (R418). -/
def State.noteSample (s : State) (q : Nat) : State :=
  let x := s.quad q
  if x.sampler.mode = 1 ∧ x.sampler.at = x.clock then
    let can (k : Nat) (m : Mask) (pc : Dword) : Bool := match s.attempt q k m pc with
      | .waits _ => false
      | _ => true
    s.setQuad q { x with snap := some ((s.nextSlot q).map (fun k => s.viewOf q k (can k))) }
  else s

/-- A step within a quadrant's clock: an event that can take place, else the clock's issue. -/
def State.quadTurn (s : State) (q : Nat) : Res :=
  let s := (s.catchUp q).noteSample q
  if ((s.quad q).throttled || s.coolantBad) && Config.heldClock q s.round then .next (s.holdClock q)
  else
    match s.firstOf (s.quadEvents q) with
    | some t => .next t
    | none => s.issueTurn q

/-! ### Inputs -/

/-- The meaning of an input: that of its row. -/
def Input.run : Input → State → Res
  | .launchRecord src rec => execLaunchRecord src rec
  | .kick vdev n tail => execKick vdev n tail
  | .larkarMeasure i digest => fun s => .next (if s.booted then s.larkarMeasure i digest else s)
  | .nvmeReport ids ok => fun s => .next (s.reportTransfer ids ok)
  | .tableEntry vdev va top entry => fun s => .next (s.changeTable vdev va top entry)
  | .flitAck port seq => fun s => .next (s.ackFlits port seq)
  | .flitRetry port seq => fun s => .next (s.resendFlits port seq)
  | .collLocal vdev cid member data => fun s => .next ((s.localContribution vdev cid member data).getD s)
  | .kickWrite vdev off n data => fun s => if s.pcieUp then Machine.kickWrite vdev off n data s else .next s
  | .launchFrame port mac payload => execLaunchFrame port mac payload
  | .hostWrite vdev va data => execHostWrite vdev va data
  | .hostRead vdev kickPage va n => execHostRead vdev kickPage va n
  | .nvmeTransfer port toDevice block vdev va n => execNvmeTransfer port toDevice block vdev va n
  | .debuggerAttach vdev => execDebuggerAttach vdev
  | .haltGroup vdev lseq g => execHaltGroup vdev lseq g
  | .edit w e => execEdit w e
  | .releaseGroup vdev lseq g => execReleaseGroup vdev lseq g
  | .releaseThread vdev fseq => execReleaseThread vdev fseq
  | .pageService vdev fseq leaves ok => execPageService vdev fseq leaves ok
  | .invalidatePage vdev va entry => execInvalidatePage vdev va entry
  | .migrationCopyDone vdev va tier frame => execMigrationCopyDone vdev va tier frame
  | .frameFree tier frame big => execFrameFree tier frame big
  | .unitFailing cxl unit => execUnitFailing cxl unit
  | .evacuationDone cxl => execEvacuationDone cxl
  | .partitionWrite core own div => execPartitionWrite core own div
  | .contractWrite c => execContractWrite c
  | .registerWrite vdev r v => execRegisterWrite vdev r v
  | .sliceEnd vdev => execSliceEnd vdev
  | .sliceStart vdev => execSliceStart vdev
  | .precopyRound vdev pages => execPrecopyRound vdev pages
  | .migrationStop vdev => execMigrationStop vdev
  | .migrationResume c queues pend rec => execMigrationResume c queues pend rec
  | .translationWalkDone die vdev va => execTranslationWalkDone die vdev va
  | .flitReceived port seq good => execFlitReceived port seq good
  | .portFailure port => execPortFailure port
  | .remoteRequest peer vdev k va n data => execRemoteRequest peer vdev k va n data
  | .collContribution tract job member data => execCollContribution tract job member data
  | .wordError w => fun s => .next (s.wordError w)
  | .sectorError x => fun s => .next (s.sectorError x)
  | .setPwrlim watts => execSetPwrlim watts
  | .ownershipTransfer sig => execOwnershipTransfer sig
  | .ownerInstall key sig => execOwnerInstall key sig
  | .getVersion => execGetVersion
  | .getCapabilities => execGetCapabilities
  | .negotiateAlgorithms sm2 sm3 => execNegotiateAlgorithms sm2 sm3
  | .getDigests => execGetDigests
  | .getCertificate slot => execGetCertificate slot
  | .challenge nonce => execChallenge nonce
  | .getMeasurements index => execGetMeasurements index
  | .powerOnReset images => execPowerOnReset images
  | .coolantFault milliCelsius millilitres => execCoolantFault milliCelsius millilitres
  | .junctionOvertemp celsius => execJunctionOvertemp celsius
  | .powerThrottle q on => execPowerThrottle q on

/-- The first scheduled input that is due, and the schedule without it. -/
def dueInput (now : Nat) : List (Nat × Input) → Option (Input × List (Nat × Input))
  | [] => none
  | e :: es =>
    if e.1 ≤ now then some (e.2, es)
    else
      match dueInput now es with
      | some (i, r) => some (i, e :: r)
      | none => none

/-- An input arrives; one that cannot take place has no effect. -/
def State.input (s : State) (i : Input) : State :=
  match i.run s with
  | .next t => t
  | _ => s

end Sys2Proof.Machine
end

