-- ==== Sys2Proof/Machine/Step.lean ====
section
/-! DEFINITION. One step of the part: a scheduled input that is due, else an event or an issue of the quadrant whose clock it is,
else a round of the units outside the quadrants; and the placing of one instruction where the next step issues it. -/

namespace Sys2Proof.Machine

/-- One step. At 115 C the part has stopped at once (R442): nothing reaches it any more but a `POWER_ON_RESET`, and without an
input to come there is no further step. -/
def step (s : State) : Host.Outcome State Fault Refusal :=
  let t := { s with tick := s.tick + 1 }
  if s.stopped then
    match dueInput s.tick s.sched with
    | some (.powerOnReset images, rest) => .next ({ t with sched := rest }.input (.powerOnReset images))
    | some (_, rest) => .next { t with sched := rest }
    | none => if s.sched.isEmpty then .fault .partStopped else .next t
  else
    match dueInput s.tick s.sched with
    | some (i, rest) => .next ({ t with sched := rest }.input i)
    | none =>
      match s.turn with
      | 0 => .next t.globalTurn
      | q + 1 => t.quadTurn q

/-- The part with the instruction of bits `w` in the instruction cache of core 0, at address 0, where quadrant 0 issues it next
for the one thread of the one warp that stands there. Its device number is one that no contract can have, so that no page
table, breakpoint or window of another device bears on it; the quadrant has nothing else to do in this clock. -/
def State.withFetchWord (s : State) (nbits w : Nat) : State :=
  let v := 65536
  let thread0 : Warp := { Warp.init with vdev := v, tmask := 1, live := 1 }
  let x : Quad := { Quad.init with win := [.warp 0, .empty, .empty, .empty], seen := s.round }
  let s := { s with resident := 0 :: s.resident.filter (fun gw => decide (16 ≤ gw)),
                    warps := NMap.set Warp.init s.warps 0 thread0,
                    flights := s.flights.filter (fun (f : Flight) => f.iss.quad != 0 && f.gw != 0), badW := [],
                    runs := NMap.drop s.runs 0, sched := [], stopped := false, coolantBad := false, turn := 1 }
  let s := s.setQuad 0 x
  let c := s.core 0
  s.setCore 0 { c with icache := NMap.set [] c.icache (lineKey v 0) (Sys2Proof.wordsOf (w % 2 ^ nbits)),
                       icOrder := c.icOrder.filter (fun e => e.1 != lineKey v 0) ++ [(lineKey v 0, 0)] }

end Sys2Proof.Machine
end

