-- ==== Sys2Proof/Safety.lean ====
section
/-! DEFINITION. What counts as a safe run of the part, and the terms in which statements about it are written: the lanes that act,
the checks that pass, and all that an instruction which only reads and writes registers changes. -/

namespace Sys2Proof.Machine

/-- The part goes on from a state: its step answers a next state. -/
def State.goesOn (s : State) : Prop := ∃ t, step s = .next t

/-- `n` steps from a state all answer a next state, the last of them `t`. -/
def State.reaches (s : State) (n : Nat) (t : State) : Prop := Host.Core.run Sys2Proof.core n s = Host.Outcome.next t

/-- A state that a run from reset can come to. -/
def State.reachable (s : State) : Prop := ∃ n, State.reset.reaches n s

/-- What every step keeps: the memory is in its canonical form. -/
def State.inv (s : State) : Prop := Memory.wf s.mem = true

/-- A safe run of `n` steps: it goes on to its end, and the invariant holds there. -/
def State.safeRun (s : State) (n : Nat) : Prop := ∃ t, s.reaches n t ∧ t.inv

/-! ### What an instruction sees -/

/-- Lanes of the issuing set whose guard is true (R51). -/
def State.on (s : State) (g : Guard) : Mask := s.iw.guarded s.iss.mask g

/-- The checks of R59 items 6 to 9 find nothing wrong: no header is due, every hold register is below the hold count, no
declared survivor is written, and no guard-true lane reads a lost latch or an unwritten near register. -/
def State.operandsOk (s : State) (sh : Shape) : Prop := sh.check s.iw s.iss.mask = none

/-! ### What it changes -/

/-- Nothing changes but the warp that issues. -/
def State.onlyWarp (s t : State) : Prop :=
  { t with warps := [] } = { s with warps := [] } ∧ ∀ gw, gw ≠ s.iss.gw → t.warp gw = s.warp gw

/-- A warp without its threads, its registers of the five levels, its predicates and its latches. -/
def Warp.bare (w : Warp) : Warp :=
  { w with threads := [], hold := [], near := [], nearW := [], uni := [], pred := [], latch := [], latchV := [] }

/-- The threads of the set go on at the next instruction, and nothing else of any thread changes. -/
def State.setGoesOn (s t : State) : Prop :=
  ∀ l, t.iw.thread l = if hasLane s.iss.mask l then (s.iw.thread l).goto s.iss.next else s.iw.thread l

/-- The word of a result that a hold register gets, if the target names it. -/
def Target.holdWord (t : Target) (r : Nat) (v : Dword) : Option Word :=
  match t with
  | .reg (.reg (.hold i) false) wide =>
    if r = i.toNat then some (lo32 v) else if wide = true ∧ r = i.toNat + 1 then some (hi32 v) else none
  | _ => none

/-- The same for a near register, and for a uniform one. -/
def Target.nearWord (t : Target) (r : Nat) (v : Dword) : Option Word :=
  match t with
  | .reg (.reg (.near i) false) wide =>
    if r = i.toNat then some (lo32 v) else if wide = true ∧ r = i.toNat + 1 then some (hi32 v) else none
  | _ => none
def Target.uniWord (t : Target) (r : Nat) (v : Dword) : Option Word :=
  match t with
  | .reg (.reg (.uniform i) false) wide =>
    if r = i.toNat then some (lo32 v) else if wide = true ∧ r = i.toNat + 1 then some (hi32 v) else none
  | _ => none

/-- The target is this predicate, and one that can be written (R26). -/
def Target.isPred (t : Target) (p : Nat) : Bool :=
  match t with
  | .pred q => q.toNat == p && p != 7
  | _ => false

/-- The target takes part in the latches: a register, or `_` (R13). -/
def Target.shifts : Target → Bool
  | .pred _ => false
  | .reg _ _ => true

/-- Evenness of a pair (R23). -/
def Target.ok : Target → Bool
  | .pred _ => true
  | .reg d wide => d.ok (if wide then 2 else 1)

/-- All that an instruction which only reads and writes registers does, with a target, a guard and a value for each lane: `one`
is the lane whose value a uniform register takes, if it is written, and `kv` what each lane's new k1 holds. The latches of a set whose
uniform destination is not written, its lowest thread being guard-false, shift as the others' (assumption 49). -/
structure State.Wrote (s t : State) (g : Guard) (tgt : Target) (one : Option Nat) (v kv : Nat → Dword) : Prop where
  only : s.onlyWarp t
  rest : t.iw.bare = s.iw.bare
  threads : s.setGoesOn t
  hold : ∀ l r, r < 256 → t.iw.getHold l r =
    if hasLane (s.on g) l then (tgt.holdWord r (v l)).getD (s.iw.getHold l r) else s.iw.getHold l r
  near : ∀ l r, r < 16 → t.iw.getNear l r =
    if hasLane (s.on g) l then (tgt.nearWord r (v l)).getD (s.iw.getNear l r) else s.iw.getNear l r
  written : ∀ l r, l < 32 → r < 16 → hasLane (t.iw.nearWritten r) l =
    (hasLane (s.iw.nearWritten r) l || ((tgt.nearWord r 0).isSome && hasLane (s.on g) l))
  uni : ∀ r, t.iw.getUni r = match one with
    | some l => (tgt.uniWord r (v l)).getD (s.iw.getUni r)
    | none => s.iw.getUni r
  pred : ∀ p l, l < 32 → t.iw.getPred l p =
    if tgt.isPred p && hasLane (s.on g) l then (v l).getLsbD 0 else s.iw.getPred l p
  latch : ∀ l k, k < 4 → t.iw.getLatch l k =
    if tgt.shifts && hasLane s.iss.mask l then
      (if k = 0 then (if hasLane (s.on g) l then kv l else s.iw.getLatch l 0) else s.iw.getLatch l (k - 1))
    else s.iw.getLatch l k
  valid : ∀ l k, l < 32 → k < 4 → hasLane (t.iw.latchValid k) l =
    if tgt.shifts && hasLane s.iss.mask l then
      (if k = 0 then hasLane (s.on g) l else hasLane (s.iw.latchValid (k - 1)) l)
    else hasLane (s.iw.latchValid k) l

/-- The lane whose value a uniform destination takes when lanes do not see one another: the lowest of the set, if its guard is
true (R25, R51). -/
def State.uniLane (s : State) (g : Guard) : Option Nat :=
  if hasLane (s.on g) (lowest s.iss.mask) then some (lowest s.iss.mask) else none

/-- The value of a lane's new k1: its own, and for a uniform destination the one value (R25), also where the lowest thread is
guard-false and the register keeps its value (assumption 49). -/
def State.k1 (s : State) (tgt : Target) (v : Nat → Dword) (l : Nat) : Dword :=
  match tgt with
  | .reg (.reg (.uniform _) _) _ => v (lowest s.iss.mask)
  | _ => v l

/-- The values of an instruction's sources in a lane. -/
def State.args (s : State) (h : Hdr) (srcs : List (Opd × Ty)) (l : Nat) : List Dword :=
  srcs.map (fun x => x.1.val s.iw s.iss h.lit l x.2)

/-- The shape of a register instruction for the checks of R59. -/
def aluShape (h : Hdr) (tgt : Target) (srcs : List (Opd × Ty)) : Shape :=
  { guard := h.guard, srcs := srcs.map (fun x => (x.1, x.2.regs)),
    dsts := (match tgt with
      | .reg d wide => d.regs (if wide then 2 else 1)
      | .pred _ => []),
    strand := false, seals := false }

/-- An instruction computes, lane by lane, a value of its sources, of the lane's predicates and of the warp's flush flag, and writes
it to its target: from every state in which its operands may be read and written it goes on, and that is all it does. -/
def Computes (i : Instr) (h : Hdr) (tgt : Target) (srcs : List (Opd × Ty))
    (f : Bool → (Nat → Bool) → List Dword → Dword) : Prop :=
  tgt.ok = true → ∀ s : State, s.operandsOk (aluShape h tgt srcs) →
    ∃ t, exec i s = .next t ∧
      s.Wrote t h.guard tgt (s.uniLane h.guard) (fun l => f s.iw.flush (fun p => s.iw.getPred l p) (s.args h srcs l))
        (s.k1 tgt (fun l => f s.iw.flush (fun p => s.iw.getPred l p) (s.args h srcs l)))

/-- The lane whose value a uniform destination takes when lanes see one another: the lowest whose guard is true (R147). -/
def State.acrossLane (s : State) (g : Guard) : Option Nat := if s.on g = 0 then none else some (lowest (s.on g))

/-- The value of a lane's new k1 in such an instruction. -/
def State.k1Across (s : State) (g : Guard) (tgt : Target) (v : Nat → Dword) (l : Nat) : Dword :=
  match tgt with
  | .reg (.reg (.uniform _) _) _ => v (lowest (s.on g))
  | _ => v l

/-- The same for an instruction whose lanes see one another: the value of a lane is one of the guard-true lanes, of every lane's
sources and of every lane's predicates (R147). -/
def ComputesAcross (i : Instr) (h : Hdr) (tgt : Target) (srcs : List (Opd × Ty))
    (f : Bool → Mask → (Nat → List Dword) → (Nat → Nat → Bool) → Nat → Dword) : Prop :=
  tgt.ok = true → ∀ s : State, s.operandsOk { aluShape h tgt srcs with xlane := true } →
    ∃ t, exec i s = .next t ∧
      s.Wrote t h.guard tgt (s.acrossLane h.guard)
        (f s.iw.flush (s.on h.guard) (s.args h srcs) (fun l p => s.iw.getPred l p))
        (s.k1Across h.guard tgt (f s.iw.flush (s.on h.guard) (s.args h srcs) (fun l p => s.iw.getPred l p)))

/-- The register writes that an operation in flight will make: in each guard-true lane its own value, in a uniform register the
one value, with `nw` or `_` none (R25, R52). -/
def State.writesOf (s : State) (g : Guard) (d : Dst) (v : Nat → Dword) : List RegW :=
  match d with
  | .none => []
  | .reg _ true => []
  | .reg (.uniform r) false =>
    match s.uniLane g with
    | some l => regWrites l (.uniform r) false (v l)
    | none => []
  | .reg r false => ((laneList (s.on g)).map (fun l => regWrites l r false (v l))).flatten

/-- Register writes that name a near register of a lane. -/
def marksNear (ws : List RegW) (l r : Nat) : Bool :=
  ws.any (fun w => match w with
    | .near k _ => k == 16 * l + r
    | _ => false)

/-- The issuing warp is unchanged but for its threads, which go on, and the written bits of the near registers that operations in
flight name, which are set at issue (R34, R97). -/
def State.warpGoesOn (s t : State) (ws : List RegW) : Prop :=
  s.setGoesOn t ∧ { t.iw with threads := [], nearW := [] } = { s.iw with threads := [], nearW := [] } ∧
    (∀ l r, l < 32 → r < 16 → hasLane (t.iw.nearWritten r) l = (hasLane (s.iw.nearWritten r) l || marksNear ws l r)) ∧
    ∀ gw, gw ≠ s.iss.gw → t.warp gw = s.warp gw

/-- An instruction of the special-function unit: the unit is taken for 4 clocks, the result of each lane is in flight until clock
c + 14, and nothing else changes (R97). It counts as outstanding for the whole set (assumption 49). -/
def TakesUnit (i : Instr) (h : Hdr) (d : Dst) (srcs : List (Opd × Ty)) (f : Bool → List Dword → Dword) : Prop :=
  ∀ s : State, s.operandsOk (aluShape h (.reg d false) srcs) →
    ∃ t fl, exec i s = .next t ∧
      { t with warps := [], quads := [], flights := [], nextId := 0 } =
        { s with warps := [], quads := [], flights := [], nextId := 0 } ∧
      t.flights = s.flights ++ [fl] ∧ t.nextId = s.nextId + 1 ∧
      fl.id = s.nextId ∧ fl.kind = .sfu ∧ fl.gw = s.iss.gw ∧ fl.mask = s.iss.mask ∧ fl.due = s.iss.clk + 14 ∧ fl.exact = true ∧
      fl.writes = s.writesOf h.guard d (fun l => f s.iw.flush (s.args h srcs l)) ∧
      (∀ q, q ≠ s.iss.quad → t.quad q = s.quad q) ∧
      t.quad s.iss.quad = { s.quad s.iss.quad with sfuFree := s.iss.clk + 4 } ∧
      s.warpGoesOn t fl.writes

/-! ### Threads that move, and strands that end -/

/-- Nothing changes but the threads of the issuing warp, which become as `f` says. -/
structure State.Moved (s t : State) (f : Nat → Thread) : Prop where
  only : s.onlyWarp t
  rest : { t.iw with threads := [] } = { s.iw with threads := [] }
  threads : ∀ l, t.iw.thread l = f l

/-- The checks of R59 pass, and at the end of a gang strand every other member stands at its own (R254). -/
def State.mayIssue (s : State) (sh : Shape) : Prop :=
  s.operandsOk sh ∧ ((sh.seals || sh.strand) = true → s.gangHold = none)

/-- The end of a strand for the threads of a mask, before they go on: their counts are logged or compared under replay (R423), and
a warp-wide strand commits its image and gives up its footprints (R245, R256). -/
def State.strandEnd (s : State) (m : Mask) : State := (s.sealLog m).endWide s.iss.gw m

/-- The set seals and goes on at the next instruction, which must be a header (R39 to R41). -/
def State.Sealed (s t : State) : Prop :=
  (s.strandEnd s.iss.mask).Moved t (fun l =>
    if hasLane s.iss.mask l then ((s.strandEnd s.iss.mask).iw.thread l).sealAt s.iss.next
    else (s.strandEnd s.iss.mask).iw.thread l)

/-- A live thread after the waits on the masks have been evaluated: a `WAITJ` ends once every live lane of its mask waits there, a
`SLEEPJ` once the lane's bit is clear; a thread released goes on behind its instruction (R138 to R140, R41). -/
def Warp.released (w : Warp) (l : Nat) : Thread :=
  match (w.thread l).stat with
  | .waitj j n =>
    if lanes.all (fun k => !(hasLane (w.getJ j) k && hasLane w.live k) || (w.thread k).waitsOn j) then (w.thread l).release n
    else w.thread l
  | .sleepj j n => if hasLane (w.getJ j) l then w.thread l else (w.thread l).release n
  | _ => w.thread l

/-- The waits of the issuing warp are evaluated, and nothing else happens. -/
def State.Wakes (u t : State) : Prop :=
  u.Moved t (fun l => if hasLane u.iw.live l then u.iw.released l else u.iw.thread l)

/-- Nothing changes but the rejoin masks of the issuing warp, which become as `f` says. -/
structure State.Masked (s t : State) (f : Nat → Mask) : Prop where
  only : s.onlyWarp t
  rest : { t.iw with rejoin := [] } = { s.iw with rejoin := [] }
  masks : ∀ j, t.iw.getJ j = f j

/-! ### Operations in flight -/

/-- A state with one more operation in flight, of this kind, and with nothing else changed but the issuing warp. -/
structure State.Launched (s t : State) (k : FKind) (m : Mask) (ws : List RegW) (fl : Flight) : Prop where
  rest : { t with warps := [], flights := [], nextId := 0 } = { s with warps := [], flights := [], nextId := 0 }
  flights : t.flights = s.flights ++ [fl]
  next : t.nextId = s.nextId + 1
  id : fl.id = s.nextId
  kind : fl.kind = k
  warp : fl.gw = s.iss.gw
  mask : fl.mask = m
  writes : ∀ x, x ∈ fl.writes ↔ x ∈ ws
  alive : fl.kill = 0 ∧ fl.behind = [] ∧ fl.swaths = []

/-- Only the written bits of the near registers that operations in flight name change in the warps. -/
def State.marksOnly (s t : State) (ws : List RegW) : Prop :=
  { t.iw with nearW := [] } = { s.iw with nearW := [] } ∧
    (∀ l r, l < 32 → r < 16 → hasLane (t.iw.nearWritten r) l = (hasLane (s.iw.nearWritten r) l || marksNear ws l r)) ∧
    ∀ gw, gw ≠ s.iss.gw → t.warp gw = s.warp gw

/-! ### Memory -/

/-- Nothing stands in the way of an access: every word has good parity, no sector is lost or beyond correction, no swath is in
motion and no write is held. -/
def State.clear (s : State) : Prop :=
  s.badW = [] ∧ s.badSec = [] ∧ s.lost = [] ∧ s.hbm.inFlight = [] ∧ s.cxl.inFlight = [] ∧ s.held = []

/-- The quadrant's sampler does not count memory instructions. -/
def State.unsampled (s : State) : Prop := (s.quad s.iss.quad).sampler.mode ≠ 2

/-- The lanes of a mask reach device memory through a buffer record (R178 to R182): the record is good, every lane's element is in
its extent and aligned, or clamped (key `none`), no watch range covers it, every line translates, and it lies at a key of memory
that no migration holds. `s'` is the state after the translations. -/
structure State.Reaches (s : State) (m : Mask) (r : BufRec) (idx : Nat → Nat) (size : Nat) (write : Bool) (s' : State)
    (key : Nat → Option Nat) : Prop where
  any : m ≠ 0
  good : r.bad write = false
  after : s' = (s.translateLines (dieOfQuad s.iss.quad) s.iw.vdev write
    (linesOf (locsOf ((laneList m).map (fun l => (l, r.addr (idx l) size)))))).1
  lines : ∀ x ∈ (s.translateLines (dieOfQuad s.iss.quad) s.iw.vdev write
    (linesOf (locsOf ((laneList m).map (fun l => (l, r.addr (idx l) size)))))).2, ∃ k, x.2 = .ok k false
  place : ∀ l, hasLane m l = true → match key l with
    | none => r.addr (idx l) size = .clamp
    | some k => ∃ a, r.addr (idx l) size = .loc a ∧ (s.contract s.iw.vdev).watchHit write a size = none ∧
        placeOf (s.translateLines (dieOfQuad s.iss.quad) s.iw.vdev write
          (linesOf (locsOf ((laneList m).map (fun l => (l, r.addr (idx l) size)))))).2 a = .ok k false
  clear : s'.clear
  unsampled : s.unsampled

/-- The bytes at a key as a number, little-endian. -/
def State.valueAt (s : State) (k n : Nat) : Nat := leNat (s.bytes k n)

/-- Store for the lanes of a list in order: lane l's bytes at its key, if it has one. -/
def State.storeAll (s : State) (key : Nat → Option Nat) (data : Nat → List Byte) : List Nat → State
  | [] => s
  | l :: ls =>
    (match key l with
     | some k => s.setBytes k (data l)
     | none => s).storeAll key data ls

/-- One atomic at a key: what stands there afterwards (R196). -/
def State.rmw (s : State) (k : Nat) (op : AtomOp) (w : Width) (x : Dword × Dword) : State :=
  let old : Dword := BitVec.ofNat 64 (s.valueAt k (atomBytes w))
  if op = .cas ∧ trunc w old ≠ trunc w x.2 then s
  else s.setBytes k (leBytes (atomBytes w) (atomNew op w old x.1 x.2).toNat)

/-- Atomics of the lanes of a list in order: the state after them, and each lane's old value. -/
def State.rmwAll (s : State) (key : Nat → Option Nat) (op : AtomOp) (w : Width) (x : Nat → Dword × Dword) :
    List Nat → State × List (Nat × Nat)
  | [] => (s, [])
  | l :: ls =>
    match key l with
    | none => let r := s.rmwAll key op w x ls; (r.1, (l, 0) :: r.2)
    | some k => let r := (s.rmw k op w (x l)).rmwAll key op w x ls; (r.1, (l, s.valueAt k (atomBytes w)) :: r.2)

/-- The lanes of a mask reach the scratchpads of their tract (R190, R191). -/
structure State.ReachesScr (s : State) (m : Mask) (addr : Nat → LaneAddr) (key : Nat → Nat) : Prop where
  any : m ≠ 0
  place : ∀ l, hasLane m l = true → addr l = .loc (key l)
  clear : s.badW = [] ∧ s.lost = [] ∧ s.badSec = [] ∧ s.held = []
  unsampled : s.unsampled

/-! ### Warp-wide instructions (R213, R244 to R256) -/

/-- The whole warp issues together, with every guard true (R213). -/
def State.wholeWarp (s : State) (g : Guard) : Prop := s.on g = s.iss.mask ∧ s.iss.mask = s.iw.live

/-- The state in which a warp-wide instruction acts: no set waits at one any more. -/
def State.wideStart (s : State) : State := s.setIw { s.iw with wides := [] }

/-- A warp-wide instruction takes the matrix unit of its quadrant for a number of clocks: from the state `u` that its memory effects
leave, the working image becomes `acc`, one operation is in flight, and the threads go on. -/
structure State.TakesMatrixUnit (u t : State) (clocks : Nat) (acc : Acc) (sp : Option (Dword × Word × Word)) : Prop where
  rest : { t with warps := [], quads := [], flights := [], nextId := 0 } = { u with warps := [], quads := [], flights := [], nextId := 0 }
  unit : t.quad u.iss.quad = { u.quad u.iss.quad with work := acc }
  quads : ∀ q, q ≠ u.iss.quad → t.quad q = u.quad q
  flight : ∃ fl, t.flights = u.flights ++ [fl] ∧ fl.id = u.nextId ∧ fl.kind = .matrix ∧ fl.gw = u.iss.gw ∧ fl.mask = u.iss.mask ∧
    fl.due = u.iss.clk + clocks ∧ fl.writes = [] ∧ fl.sealed = false ∧ fl.spot = sp ∧ fl.kill = 0
  next : t.nextId = u.nextId + 1
  warp : { t.iw with threads := [] } = { u.iw with threads := [] }
  warps : ∀ gw, gw ≠ u.iss.gw → t.warp gw = u.warp gw
  threads : u.setGoesOn t

/-! ### Bytes stored, waiters released -/

/-- Nothing changes but the bytes of memory from key `k`, which become `bs`. -/
def State.StoredAt (s t : State) (k : Nat) (bs : List Byte) : Prop :=
  { t with mem := [] } = { s with mem := [] } ∧
    ∀ x, t.byte x = if k ≤ x ∧ x < k + bs.length then bs.getD (x - k) 0 else s.byte x

/-- Every recorded waiter of the closure at `k` goes on behind its `BWAIT`, and nothing else happens (R294, R301); one whose warp
has left the window is ready to issue its `BWAIT` again (R141, assumption 24). -/
structure State.Releases (s t : State) (k : Nat) : Prop where
  rest : { t with warps := [] } = { s with warps := [] }
  warps : ∀ gw, { t.warp gw with threads := [] } = { s.warp gw with threads := [] }
  threads : ∀ gw l, (t.warp gw).thread l = match ((s.warp gw).thread l).stat with
    | .bwait h n =>
      if h = k ∧ gw ∈ s.resident ∧ hasLane (s.warp gw).live l = true then
        (if s.inWindow gw then ((s.warp gw).thread l).release n else { (s.warp gw).thread l with stat := .ready })
      else (s.warp gw).thread l
    | _ => (s.warp gw).thread l

/-- A closure's home stores its two dwords and settles (R294): when the arrivals have reached E and no byte is pending, the phases
that can complete do, `PH` changes once for each, and the waiters are released. `d1` is dword 1 as it stood. -/
def State.Settles (s t : State) (k exp pend : Nat) (d1 : Dword) (arr : Nat) : Prop :=
  let dword1 (ph : Bool) (n : Nat) : Nat := field d1 63 17 * 2 ^ 17 + (if ph then 2 ^ 16 else 0) + n
  let both (ph : Bool) (n : Nat) : List Byte := leBytes 8 (exp * 2 ^ 48 + pend) ++ leBytes 8 (dword1 ph n)
  (¬ (exp ≤ arr ∧ pend = 0) → s.StoredAt t k (both (d1.getLsbD 16) arr)) ∧
  (exp ≤ arr ∧ pend = 0 → ∃ u,
    s.StoredAt u k (both (Bool.xor (d1.getLsbD 16) (arr / exp % 2 == 1)) (arr % exp)) ∧ u.Releases t k)

end Sys2Proof.Machine
end

