-- ==== Sys2Proof/Certificates/Slice0/Obligations.lean ====
section
/-! DEFINITION. The statements for the provers. Each docstring says which rule of spec/ it formalises. -/

open Sys2Proof Sys2Proof.Machine


/-! ### Integer instructions (spec/05) -/

/-- R101 to R103: the two-source integer instructions. S and N read a source as signed and as natural, `trunc w` keeps w bits. The new
k1 of a uniform destination whose lowest thread is guard-false is the model's choice (assumption 49). -/
def Obligations.IntegerTwoSourceResults : Prop :=
  ∀ (h : Hdr) (w : Width) (d : Dst) (a b : Opd),
    let tgt : Target := .reg d (isWide w)
    let both : List (Opd × Ty) := [(a, widthTy w), (b, widthTy w)]
    let count : List (Opd × Ty) := [(a, widthTy w), (b, .i32)]
    let op (f : Dword → Dword → Dword) : Bool → (Nat → Bool) → List Dword → Dword :=
      fun _ _ xs => trunc w (f (xs.getD 0 0) (xs.getD 1 0))
    let n (x : Dword) : Nat := nNat w x
    let z (x : Dword) : Int := sInt w x
    let k (x : Dword) : Nat := x.toNat % 64 % wBits w
    Computes (.add h w d a b) h tgt both (op fun x y => x + y) ∧
    Computes (.sub h w d a b) h tgt both (op fun x y => x - y) ∧
    Computes (.mul h w d a b) h tgt both (op fun x y => x * y) ∧
    Computes (.mulh h w d a b) h tgt both (op fun x y => BitVec.ofInt 64 ((z x * z y) / (2 : Int) ^ wBits w)) ∧
    Computes (.mulhn h w d a b) h tgt both (op fun x y => BitVec.ofNat 64 ((n x * n y) / 2 ^ wBits w)) ∧
    Computes (.minS h w d a b) h tgt both (op fun x y => if z y < z x then y else x) ∧
    Computes (.maxS h w d a b) h tgt both (op fun x y => if z x < z y then y else x) ∧
    Computes (.minn h w d a b) h tgt both (op fun x y => if n y < n x then y else x) ∧
    Computes (.maxn h w d a b) h tgt both (op fun x y => if n x < n y then y else x) ∧
    Computes (.andB h w d a b) h tgt both (op fun x y => x &&& y) ∧
    Computes (.orB h w d a b) h tgt both (op fun x y => x ||| y) ∧
    Computes (.xorB h w d a b) h tgt both (op fun x y => x ^^^ y) ∧
    Computes (.andn h w d a b) h tgt both (op fun x y => x &&& ~~~ y) ∧
    Computes (.orn h w d a b) h tgt both (op fun x y => x ||| ~~~ y) ∧
    Computes (.shl h w d a b) h tgt count (op fun x y => x <<< k y) ∧
    Computes (.shr h w d a b) h tgt count (op fun x y => BitVec.ofNat 64 (n x / 2 ^ k y)) ∧
    Computes (.sar h w d a b) h tgt count (op fun x y => BitVec.ofInt 64 (z x / (2 : Int) ^ k y)) ∧
    Computes (.rol h w d a b) h tgt count (op fun x y => (x <<< k y) ||| BitVec.ofNat 64 (n x / 2 ^ (wBits w - k y))) ∧
    Computes (.ror h w d a b) h tgt count (op fun x y => BitVec.ofNat 64 (n x / 2 ^ k y) ||| (x <<< (wBits w - k y)))

/-- R102: quotients and remainders, with the values for a zero divisor and for the one quotient that does not fit. The new k1 of a
uniform destination whose lowest thread is guard-false is the model's choice (assumption 49). -/
def Obligations.IntegerDivisionResults : Prop :=
  ∀ (h : Hdr) (w : Width) (d : Dst) (a b : Opd),
    let tgt : Target := .reg d (isWide w)
    let both : List (Opd × Ty) := [(a, widthTy w), (b, widthTy w)]
    let op (f : Dword → Dword → Dword) : Bool → (Nat → Bool) → List Dword → Dword :=
      fun _ _ xs => trunc w (f (xs.getD 0 0) (xs.getD 1 0))
    let n (x : Dword) : Nat := nNat w x
    let z (x : Dword) : Int := sInt w x
    let ones : Dword := BitVec.ofNat 64 (2 ^ wBits w - 1)
    Computes (.div h w d a b) h tgt both (op fun x y => if n y = 0 then ones else BitVec.ofInt 64 ((z x).tdiv (z y))) ∧
    Computes (.rem h w d a b) h tgt both (op fun x y => if n y = 0 then x else BitVec.ofInt 64 ((z x).tmod (z y))) ∧
    Computes (.divn h w d a b) h tgt both (op fun x y => if n y = 0 then ones else BitVec.ofNat 64 (n x / n y)) ∧
    Computes (.remn h w d a b) h tgt both (op fun x y => if n y = 0 then x else BitVec.ofNat 64 (n x % n y))

/-- R104 to R106: the three-source integer instructions, bit fields and `SEL`. The new k1 of a uniform destination whose lowest thread is
guard-false is the model's choice (assumption 49). -/
def Obligations.IntegerThreeSourceResults : Prop :=
  ∀ (h : Hdr) (w : Width) (d : Dst) (a b c : Opd) (p : BitVec 3),
    let tgt : Target := .reg d (isWide w)
    let src (x : Opd) : Opd × Ty := (x, widthTy w)
    let word (x : Opd) : Opd × Ty := (x, .i32)
    let n (x : Dword) : Nat := nNat w x
    let op2 (f : Dword → Dword → Dword) : Bool → (Nat → Bool) → List Dword → Dword :=
      fun _ _ xs => trunc w (f (xs.getD 0 0) (xs.getD 1 0))
    let op3 (f : Dword → Dword → Dword → Dword) : Bool → (Nat → Bool) → List Dword → Dword :=
      fun _ _ xs => trunc w (f (xs.getD 0 0) (xs.getD 1 0) (xs.getD 2 0))
    let pos (x : Dword) : Nat := x.toNat % 256
    let len (x : Dword) : Nat := min (x.toNat / 256 % 256) (wBits w - pos x)
    let fld (x y : Dword) : Nat := n x / 2 ^ pos y % 2 ^ len y
    Computes (.mad h w d a b c) h tgt [src a, src b, src c] (op3 fun x y z => x * y + z) ∧
    Computes (.madh h w d a b c) h tgt [src a, src b, src c]
      (op3 fun x y z => BitVec.ofNat 64 ((n x * n y + n z) / 2 ^ wBits w)) ∧
    Computes (.add3 h w d a b c) h tgt [src a, src b, src c] (op3 fun x y z => x + y + z) ∧
    Computes (.lea h w d a b c) h tgt [src a, word b, word c]
      (op3 fun x y z => x + BitVec.ofInt 64 ((lo32 y).toInt * (2 : Int) ^ (z.toNat % wBits w))) ∧
    Computes (.bfx h w d a b) h tgt [src a, word b] (op2 fun x y =>
      if len y = 0 then 0
      else if y.getLsbD 16 ∧ 2 ^ (len y - 1) ≤ fld x y then BitVec.ofInt 64 ((fld x y : Int) - (2 : Int) ^ len y)
      else BitVec.ofNat 64 (fld x y)) ∧
    Computes (.bfi h w d a b c) h tgt [src a, src b, word c] (op3 fun x y z =>
      let mask : Dword := BitVec.ofNat 64 ((2 ^ len z - 1) * 2 ^ pos z)
      if len z = 0 then y else (y &&& ~~~ mask) ||| ((x <<< pos z) &&& mask)) ∧
    Computes (.sel h w d a b p) h tgt [src a, src b]
      (fun _ pr xs => trunc w (if pr p.toNat = true then xs.getD 0 0 else xs.getD 1 0))

/-- R107: the one-source integer instructions. The new k1 of a uniform destination whose lowest thread is guard-false is the model's
choice (assumption 49). -/
def Obligations.IntegerOneSourceResults : Prop :=
  ∀ (h : Hdr) (w : Width) (d : Dst) (a : Opd),
    let tgt : Target := .reg d (isWide w)
    let op (f : Dword → Dword) : Bool → (Nat → Bool) → List Dword → Dword := fun _ _ xs => trunc w (f (xs.getD 0 0))
    let num (f : Dword → Nat) : Bool → (Nat → Bool) → List Dword → Dword := op fun x => BitVec.ofNat 64 (f x)
    let n (x : Dword) : Nat := nNat w x
    let places : List Nat := List.range (wBits w)
    Computes (.mov h w d a) h tgt [(a, widthTy w)] (op fun x => x) ∧
    Computes (.neg h w d a) h tgt [(a, widthTy w)] (op fun x => 0 - x) ∧
    Computes (.abs h w d a) h tgt [(a, widthTy w)] (num fun x => (sInt w x).natAbs) ∧
    Computes (.notB h w d a) h tgt [(a, widthTy w)] (op fun x => ~~~ x) ∧
    Computes (.popc h w d a) h tgt [(a, widthTy w)] (num fun x => (places.filter (fun i => x.getLsbD i)).length) ∧
    Computes (.clz h w d a) h tgt [(a, widthTy w)]
      (num fun x => if n x = 0 then wBits w else wBits w - 1 - Nat.log2 (n x)) ∧
    Computes (.ctz h w d a) h tgt [(a, widthTy w)]
      (num fun x => (places.find? (fun i => x.getLsbD i)).getD (wBits w)) ∧
    Computes (.brev h w d a) h tgt [(a, widthTy w)]
      (num fun x => (places.map (fun i => if x.getLsbD i then 2 ^ (wBits w - 1 - i) else 0)).sum) ∧
    Computes (.sext8 h w d a) h tgt [(a, widthTy w)] (op fun x => BitVec.ofInt 64 (x.setWidth 8).toInt) ∧
    Computes (.sext16 h w d a) h tgt [(a, widthTy w)] (op fun x => BitVec.ofInt 64 (x.setWidth 16).toInt) ∧
    Computes (.zext8 h w d a) h tgt [(a, widthTy w)] (num fun x => x.toNat % 2 ^ 8) ∧
    Computes (.zext16 h w d a) h tgt [(a, widthTy w)] (num fun x => x.toNat % 2 ^ 16)

/-- R109: a comparison and its join with a predicate, which is read before the write; `p7` takes no write (R26). -/
def Obligations.ComparisonsWriteOnePredicate : Prop :=
  ∀ (h : Hdr) (w : Width) (ic : CmpCond) (fc : FCmpCond) (fm : CmpFmt) (pd : BitVec 3) (cb : Combine) (a b : Opd),
    let join (c : Bool) (pr : Nat → Bool) : Dword :=
      let x : Bool := match cb with
        | .none => c
        | .and neg q => c && Bool.xor (pr q.toNat) neg
        | .or neg q => c || Bool.xor (pr q.toNat) neg
        | .xor neg q => Bool.xor c (Bool.xor (pr q.toNat) neg)
      if x then 1 else 0
    Computes (.cmp h ic w pd cb a b) h (.pred pd) [(a, widthTy w), (b, widthTy w)]
      (fun _ pr xs => join (ic.holds w (xs.getD 0 0) (xs.getD 1 0)) pr) ∧
    Computes (.fcmp h fc fm pd cb a b) h (.pred pd) [(a, cmpFmtTy fm), (b, cmpFmtTy fm)]
      (fun _ pr xs => join (fc.holds (fm.value (xs.getD 0 0)) (fm.value (xs.getD 1 0))) pr)

/-! ### Floating-point instructions (spec/04, spec/05) -/

/-- R110, R111, R114: the FP32 operations form their exact value and round it once, with operands and result flushed when the warp
flushes (R76, R78). That a tiny `FSCALE` result rounds under the mode, and the new k1 of a uniform destination whose lowest thread is
guard-false, are the model's choices (assumption 49). -/
def Obligations.FloatArithmeticRoundsOnce : Prop :=
  ∀ (h : Hdr) (rm : Rnd) (d : Dst) (a b c : Opd),
    let tgt : Target := .reg d false
    let code (x : Dword) : Nat := (lo32 x).toNat
    let op2 (ex : Fl → Fl → Fl) : Bool → (Nat → Bool) → List Dword → Dword := fun fl _ xs =>
      BitVec.ofNat 64 (fp32.output fl rm (ex (fp32.input fl (code (xs.getD 0 0))) (fp32.input fl (code (xs.getD 1 0)))))
    let op3 (ex : Fl → Fl → Fl → Fl) : Bool → (Nat → Bool) → List Dword → Dword := fun fl _ xs =>
      BitVec.ofNat 64 (fp32.output fl rm (ex (fp32.input fl (code (xs.getD 0 0))) (fp32.input fl (code (xs.getD 1 0)))
        (fp32.input fl (code (xs.getD 2 0)))))
    let two : List (Opd × Ty) := [(a, .f32), (b, .f32)]
    let three : List (Opd × Ty) := [(a, .f32), (b, .f32), (c, .f32)]
    Computes (.fadd h rm d a b) h tgt two (op2 fun x y => Fl.add rm x y) ∧
    Computes (.fsub h rm d a b) h tgt two (op2 fun x y => Fl.add rm x y.neg) ∧
    Computes (.fmul h rm d a b) h tgt two (op2 fun x y => Fl.mul x y) ∧
    Computes (.ffma h rm d a b c) h tgt three (op3 fun x y z => Fl.add rm (Fl.mul x y) z) ∧
    Computes (.ffms h rm d a b c) h tgt three (op3 fun x y z => Fl.add rm (Fl.mul x y) z.neg) ∧
    Computes (.fnma h rm d a b c) h tgt three (op3 fun x y z => Fl.add rm (Fl.mul x y).neg z) ∧
    Computes (.fscale h rm d a b) h tgt [(a, .f32), (b, .i32)] (fun fl _ xs =>
      let k : Int := (lo32 (xs.getD 1 0)).toInt
      BitVec.ofNat 64 (fp32.output fl rm (Fl.scale (max (-1000) (min 1000 k)) (fp32.input fl (code (xs.getD 0 0))))))

/-- R112, R113: minima and maxima return an operand's own bits, order -0 below +0, and prefer a number or propagate NaN (R80, R82);
packed forms act on each element. The new k1 of a uniform destination whose lowest thread is guard-false is the model's choice
(assumption 49). -/
def Obligations.FloatMinimaMaximaAndPackedForms : Prop :=
  ∀ (h : Hdr) (rm : Rnd) (hf : Half) (d : Dst) (a b c : Opd),
    let tgt : Target := .reg d false
    let code (x : Dword) : Nat := (lo32 x).toNat
    let pick (f : FFmt) (isMax prop : Bool) (x y : Nat) : Nat :=
      if (f.decode x).isNan = true ∧ (f.decode y).isNan = true then f.nanCode
      else if (f.decode x).isNan = true then (if prop then f.nanCode else y)
      else if (f.decode y).isNan = true then (if prop then f.nanCode else x)
      else if (if isMax then f.below x y else f.below y x) = true then y else x
    let op (isMax prop : Bool) : Bool → (Nat → Bool) → List Dword → Dword := fun _ _ xs =>
      BitVec.ofNat 64 (pick fp32 isMax prop (code (xs.getD 0 0)) (code (xs.getD 1 0)))
    let low (x : Dword) : Nat := code x % 2 ^ 16
    let high (x : Dword) : Nat := code x / 2 ^ 16 % 2 ^ 16
    let each (f : Bool → List Nat → Nat) : Bool → (Nat → Bool) → List Dword → Dword := fun fl _ xs =>
      BitVec.ofNat 64 (f fl [high (xs.getD 0 0), high (xs.getD 1 0), high (xs.getD 2 0)] * 2 ^ 16 +
        f fl [low (xs.getD 0 0), low (xs.getD 1 0), low (xs.getD 2 0)])
    let rounded (ex : Fl → Fl → Fl → Fl) (fl : Bool) (es : List Nat) : Nat :=
      hf.fmt.output fl rm (ex (hf.fmt.input fl (es.getD 0 0)) (hf.fmt.input fl (es.getD 1 0)) (hf.fmt.input fl (es.getD 2 0)))
    let two : List (Opd × Ty) := [(a, .f32), (b, .f32)]
    let pairs : List (Opd × Ty) := [(a, .pair hf), (b, .pair hf)]
    Computes (.fmin h d a b) h tgt two (op false false) ∧
    Computes (.fmax h d a b) h tgt two (op true false) ∧
    Computes (.fminp h d a b) h tgt two (op false true) ∧
    Computes (.fmaxp h d a b) h tgt two (op true true) ∧
    Computes (.hmin2 h hf d a b) h tgt pairs (each fun _ es => pick hf.fmt false false (es.getD 0 0) (es.getD 1 0)) ∧
    Computes (.hmax2 h hf d a b) h tgt pairs (each fun _ es => pick hf.fmt true false (es.getD 0 0) (es.getD 1 0)) ∧
    Computes (.hadd2 h hf rm d a b) h tgt pairs (each (rounded fun x y _ => Fl.add rm x y)) ∧
    Computes (.hsub2 h hf rm d a b) h tgt pairs (each (rounded fun x y _ => Fl.add rm x y.neg)) ∧
    Computes (.hmul2 h hf rm d a b) h tgt pairs (each (rounded fun x y _ => Fl.mul x y)) ∧
    Computes (.hfma2 h hf rm d a b c) h tgt [(a, .pair hf), (b, .pair hf), (c, .pair hf)]
      (each (rounded fun x y z => Fl.add rm (Fl.mul x y) z))

/-- R115 and R116: the one-source FP32 instructions never flush. The new k1 of a uniform destination whose lowest thread is guard-false is
the model's choice (assumption 49). -/
def Obligations.FloatOneSourceResults : Prop :=
  ∀ (h : Hdr) (rm : Rnd) (d : Dst) (a : Opd),
    let tgt : Target := .reg d false
    let op (f : Nat → Nat) : Bool → (Nat → Bool) → List Dword → Dword := fun _ _ xs =>
      BitVec.ofNat 64 (f (lo32 (xs.getD 0 0)).toNat)
    let nan (x : Nat) : Prop := 0x7F800000 < x % 2 ^ 31
    Computes (.fabs h d a) h tgt [(a, .f32)] (op fun x => if 0x7F800000 < x % 2 ^ 31 then 0x7FC00000 else x % 2 ^ 31) ∧
    Computes (.fneg h d a) h tgt [(a, .f32)]
      (op fun x => if 0x7F800000 < x % 2 ^ 31 then 0x7FC00000 else if x < 2 ^ 31 then x + 2 ^ 31 else x - 2 ^ 31) ∧
    Computes (.fsat h d a) h tgt [(a, .f32)]
      (op fun x => if 2 ^ 31 ≤ x ∨ 0x7F800000 < x then 0 else min x 0x3F800000) ∧
    Computes (.fclass h d a) h tgt [(a, .f32)] (op fun x =>
      let m : Nat := x % 2 ^ 31
      let neg : Bool := decide (2 ^ 31 ≤ x)
      if 0x7FC00000 ≤ m then 2 ^ 9 else if 0x7F800000 < m then 2 ^ 8
      else if m = 0x7F800000 then (if neg then 2 ^ 0 else 2 ^ 7)
      else if 0x800000 ≤ m then (if neg then 2 ^ 1 else 2 ^ 6)
      else if 0 < m then (if neg then 2 ^ 2 else 2 ^ 5)
      else (if neg then 2 ^ 3 else 2 ^ 4)) ∧
    Computes (.frnd h rm d a) h tgt [(a, .f32)] (op fun x =>
      match fp32.decode x with
      | .nan => 0x7FC00000
      | .inf _ => x
      | .fin n m e =>
        if m = 0 ∨ 0 ≤ e then x
        else
          let r : Int := roundToInt rm n m e
          if r = 0 then (if n then 2 ^ 31 else 0) else fp32.round .rne (Fl.ofInt r)) ∧
    (∀ x, nan x ↔ (fp32.decode (x % 2 ^ 32)).isNan = true)

/-- R117 with R83: conversions between formats, and to and from integers, which saturate. The new k1 of a uniform destination whose
lowest thread is guard-false is the model's choice (assumption 49). -/
def Obligations.ConversionResults : Prop :=
  ∀ (h : Hdr) (rm : Rnd) (d : Dst) (a : Opd),
    let conv (p : CvtPair) (wide : Bool) (ty : Ty) (f : Dword → Dword) : Prop :=
      Computes (.cvt h p rm d a) h (.reg d wide) [(a, ty)] (fun _ _ xs => f (xs.getD 0 0))
    let code (x : Dword) : Nat := (lo32 x).toNat
    let flt (src dst : FFmt) (n : Nat) (x : Dword) : Dword := BitVec.ofNat 64 (dst.round rm (src.decode (code x % 2 ^ n)))
    let sat (lo hi : Int) (x : Dword) : Int :=
      match fp32.decode (code x) with
      | .nan => 0
      | .inf neg => if neg then lo else hi
      | .fin n m e => max lo (min hi (roundToInt rm n m e))
    let toWord (lo hi : Int) (x : Dword) : Dword := zx (BitVec.ofInt 32 (sat lo hi x))
    let ofInt (i : Dword → Int) (x : Dword) : Dword := BitVec.ofNat 64 (fp32.round rm (Fl.ofInt (i x)))
    conv .f32f16 false (.s16 .f16) (flt fp16 fp32 16) ∧ conv .f32bf16 false (.s16 .bf16) (flt bfp16 fp32 16) ∧
    conv .f16f32 false .f32 (flt fp32 fp16 32) ∧ conv .bf16f32 false .f32 (flt fp32 bfp16 32) ∧
    conv .f16bf16 false (.s16 .bf16) (flt bfp16 fp16 16) ∧ conv .bf16f16 false (.s16 .f16) (flt fp16 bfp16 16) ∧
    conv .f32e4m3 false .b8 (flt fpE4 fp32 8) ∧ conv .f32e5m2 false .b8 (flt fpE5 fp32 8) ∧
    conv .e4m3f32 false .f32 (flt fp32 fpE4 32) ∧ conv .e5m2f32 false .f32 (flt fp32 fpE5 32) ∧
    conv .f32i32 false .i32 (ofInt fun x => (lo32 x).toInt) ∧ conv .f32n32 false .i32 (ofInt fun x => (lo32 x).toNat) ∧
    conv .f32i64 false .i64 (ofInt fun x => x.toInt) ∧ conv .f32n64 false .i64 (ofInt fun x => x.toNat) ∧
    conv .i32f32 false .f32 (toWord (-(2 ^ 31)) (2 ^ 31 - 1)) ∧ conv .n32f32 false .f32 (toWord 0 (2 ^ 32 - 1)) ∧
    conv .i64f32 true .f32 (fun x => BitVec.ofInt 64 (sat (-(2 ^ 63)) (2 ^ 63 - 1) x)) ∧
    conv .n64f32 true .f32 (fun x => BitVec.ofInt 64 (sat 0 (2 ^ 64 - 1) x)) ∧
    conv .i8f32 false .f32 (toWord (-128) 127) ∧ conv .n8f32 false .f32 (toWord 0 255) ∧
    conv .i16f32 false .f32 (toWord (-32768) 32767) ∧ conv .n16f32 false .f32 (toWord 0 65535)

/-- R68 with R69: each compact integer form is the 32-bit or 64-bit instruction it abbreviates, unguarded, on its operands expanded. -/
def Obligations.CompactIntegerResults : Prop :=
  ∀ (d : Dst8) (a b : Opd8),
    let d1 : Target := .reg d.expand false
    let d2 : Target := .reg d.expand true
    let s1 : List (Opd × Ty) := [(a.expand, .i32)]
    let s2 : List (Opd × Ty) := [(a.expand, .i32), (b.expand, .i32)]
    let w1 : List (Opd × Ty) := [(a.expand, .i64)]
    let w2 : List (Opd × Ty) := [(a.expand, .i64), (b.expand, .i64)]
    let op (f : Word → Word → Word) : Bool → (Nat → Bool) → List Dword → Dword :=
      fun _ _ xs => zx (f (lo32 (xs.getD 0 0)) (lo32 (xs.getD 1 0)))
    let one (f : Word → Word) : Bool → (Nat → Bool) → List Dword → Dword := fun _ _ xs => zx (f (lo32 (xs.getD 0 0)))
    let k (y : Word) : Nat := y.toNat % 32
    let bitList (x : Word) : List Nat := (List.range 32).filter (fun i => x.getLsbD i)
    Computes (.addC d a b) hdrC d1 s2 (op fun x y => x + y) ∧
    Computes (.subC d a b) hdrC d1 s2 (op fun x y => x - y) ∧
    Computes (.mulC d a b) hdrC d1 s2 (op fun x y => x * y) ∧
    Computes (.mulhC d a b) hdrC d1 s2 (op fun x y => BitVec.ofInt 32 ((x.toInt * y.toInt) / (2 : Int) ^ 32)) ∧
    Computes (.mulhnC d a b) hdrC d1 s2 (op fun x y => BitVec.ofNat 32 ((x.toNat * y.toNat) / 2 ^ 32)) ∧
    Computes (.minC d a b) hdrC d1 s2 (op fun x y => if y.toInt < x.toInt then y else x) ∧
    Computes (.maxC d a b) hdrC d1 s2 (op fun x y => if x.toInt < y.toInt then y else x) ∧
    Computes (.minnC d a b) hdrC d1 s2 (op fun x y => if y.toNat < x.toNat then y else x) ∧
    Computes (.maxnC d a b) hdrC d1 s2 (op fun x y => if x.toNat < y.toNat then y else x) ∧
    Computes (.andC d a b) hdrC d1 s2 (op fun x y => x &&& y) ∧
    Computes (.orC d a b) hdrC d1 s2 (op fun x y => x ||| y) ∧
    Computes (.xorC d a b) hdrC d1 s2 (op fun x y => x ^^^ y) ∧
    Computes (.andnC d a b) hdrC d1 s2 (op fun x y => x &&& ~~~ y) ∧
    Computes (.shlC d a b) hdrC d1 s2 (op fun x y => x <<< k y) ∧
    Computes (.shrC d a b) hdrC d1 s2 (op fun x y => x >>> k y) ∧
    Computes (.sarC d a b) hdrC d1 s2 (op fun x y => x.sshiftRight (k y)) ∧
    Computes (.rolC d a b) hdrC d1 s2 (op fun x y => x.rotateLeft (k y)) ∧
    Computes (.rorC d a b) hdrC d1 s2 (op fun x y => x.rotateRight (k y)) ∧
    Computes (.add64C d a b) hdrC d2 w2 (fun _ _ xs => xs.getD 0 0 + xs.getD 1 0) ∧
    Computes (.sub64C d a b) hdrC d2 w2 (fun _ _ xs => xs.getD 0 0 - xs.getD 1 0) ∧
    Computes (.movC d a) hdrC d1 s1 (one fun x => x) ∧
    Computes (.mov64C d a) hdrC d2 w1 (fun _ _ xs => xs.getD 0 0) ∧
    Computes (.negC d a) hdrC d1 s1 (one fun x => -x) ∧
    Computes (.notC d a) hdrC d1 s1 (one fun x => ~~~ x) ∧
    Computes (.popcC d a) hdrC d1 s1 (one fun x => BitVec.ofNat 32 (bitList x).length) ∧
    Computes (.clzC d a) hdrC d1 s1 (one fun x => BitVec.ofNat 32 (if x = 0 then 32 else 31 - Nat.log2 x.toNat)) ∧
    Computes (.ctzC d a) hdrC d1 s1 (one fun x => BitVec.ofNat 32 ((bitList x).headD 32)) ∧
    Computes (.sext8C d a) hdrC d1 s1 (one fun x => (x.setWidth 8).signExtend 32) ∧
    Computes (.sext16C d a) hdrC d1 s1 (one fun x => (x.setWidth 16).signExtend 32) ∧
    Computes (.zext8C d a) hdrC d1 s1 (one fun x => x &&& 0xFF) ∧
    Computes (.zext16C d a) hdrC d1 s1 (one fun x => x &&& 0xFFFF)

/-- R68 with R69: the compact floating-point forms round to nearest even. -/
def Obligations.CompactFloatResults : Prop :=
  ∀ (d : Dst8) (a b : Opd8),
    let tgt : Target := .reg d.expand false
    let s1 : List (Opd × Ty) := [(a.expand, .f32)]
    let s2 : List (Opd × Ty) := [(a.expand, .f32), (b.expand, .f32)]
    let halves (f : Half) : List (Opd × Ty) := [(a.expand, .pair f), (b.expand, .pair f)]
    let code (x : Dword) : Nat := (lo32 x).toNat
    let num (f : Bool → List Dword → Nat) : Bool → (Nat → Bool) → List Dword → Dword := fun fl _ xs => BitVec.ofNat 64 (f fl xs)
    let round2 (ex : Fl → Fl → Fl) : Bool → (Nat → Bool) → List Dword → Dword := num fun fl xs =>
      fp32.output fl .rne (ex (fp32.input fl (code (xs.getD 0 0))) (fp32.input fl (code (xs.getD 1 0))))
    let pick (isMax prop : Bool) : Bool → (Nat → Bool) → List Dword → Dword := num fun _ xs =>
      fp32.minmax isMax prop (code (xs.getD 0 0)) (code (xs.getD 1 0))
    let part (f : FFmt) (ex : Fl → Fl → Fl) (fl : Bool) (x y : Nat) : Nat :=
      f.output fl .rne (ex (f.input fl (x % 2 ^ 16)) (f.input fl (y % 2 ^ 16)))
    let packed (f : Half) (ex : Fl → Fl → Fl) : Bool → (Nat → Bool) → List Dword → Dword := num fun fl xs =>
      part f.fmt ex fl (code (xs.getD 0 0) / 2 ^ 16) (code (xs.getD 1 0) / 2 ^ 16) * 2 ^ 16 +
        part f.fmt ex fl (code (xs.getD 0 0)) (code (xs.getD 1 0))
    let add (x y : Fl) : Fl := Fl.add .rne x y
    let sub (x y : Fl) : Fl := Fl.add .rne x y.neg
    Computes (.faddC d a b) hdrC tgt s2 (round2 add) ∧
    Computes (.fsubC d a b) hdrC tgt s2 (round2 sub) ∧
    Computes (.fmulC d a b) hdrC tgt s2 (round2 Fl.mul) ∧
    Computes (.fminC d a b) hdrC tgt s2 (pick false false) ∧
    Computes (.fmaxC d a b) hdrC tgt s2 (pick true false) ∧
    Computes (.fminpC d a b) hdrC tgt s2 (pick false true) ∧
    Computes (.fmaxpC d a b) hdrC tgt s2 (pick true true) ∧
    Computes (.fscaleC d a b) hdrC tgt [(a.expand, .f32), (b.expand, .i32)] (num fun fl xs =>
      fp32.output fl .rne (Fl.scale (max (-1000) (min 1000 (lo32 (xs.getD 1 0)).toInt)) (fp32.input fl (code (xs.getD 0 0))))) ∧
    Computes (.hadd2F16C d a b) hdrC tgt (halves .f16) (packed .f16 add) ∧
    Computes (.hsub2F16C d a b) hdrC tgt (halves .f16) (packed .f16 sub) ∧
    Computes (.hmul2F16C d a b) hdrC tgt (halves .f16) (packed .f16 Fl.mul) ∧
    Computes (.hadd2Bf16C d a b) hdrC tgt (halves .bf16) (packed .bf16 add) ∧
    Computes (.hsub2Bf16C d a b) hdrC tgt (halves .bf16) (packed .bf16 sub) ∧
    Computes (.hmul2Bf16C d a b) hdrC tgt (halves .bf16) (packed .bf16 Fl.mul) ∧
    Computes (.fabsC d a) hdrC tgt s1 (num fun _ xs =>
      if 0x7F800000 < code (xs.getD 0 0) % 2 ^ 31 then 0x7FC00000 else code (xs.getD 0 0) % 2 ^ 31) ∧
    Computes (.fnegC d a) hdrC tgt s1 (num fun _ xs =>
      if 0x7F800000 < code (xs.getD 0 0) % 2 ^ 31 then 0x7FC00000 else (code (xs.getD 0 0) + 2 ^ 31) % 2 ^ 32) ∧
    Computes (.cvtF32I32C d a) hdrC tgt [(a.expand, .i32)] (num fun _ xs => fp32.round .rne (Fl.ofInt (lo32 (xs.getD 0 0)).toInt)) ∧
    Computes (.cvtI32F32C d a) hdrC tgt s1 (fun _ _ xs =>
      zx (BitVec.ofInt 32 (fpToInt .rne (-(2 ^ 31)) (2 ^ 31 - 1) (code (xs.getD 0 0))))) ∧
    Computes (.cvtF32F16C d a) hdrC tgt [(a.expand, .s16 .f16)] (num fun _ xs => fp16.convert fp32 .rne (code (xs.getD 0 0) % 2 ^ 16)) ∧
    Computes (.cvtF16F32C d a) hdrC tgt s1 (num fun _ xs => fp32.convert fp16 .rne (code (xs.getD 0 0)))

/-! ### Special functions (spec/05 R97, R118 to R121) -/

/-- R97 with R118 and R120: a special function takes the unit for 4 clocks and its result lands in the 14th clock; `DIVF` is the
correctly rounded quotient. That the operation counts as outstanding for the whole set, guard-false lanes and `nw` included, is the
model's choice (assumption 49). -/
def Obligations.SpecialFunctionIssue : Prop :=
  ∀ (h : Hdr) (d : Dst) (a b : Opd) (e : Dst8) (x y : Opd8),
    let op (fn : SfuFn) : Bool → List Dword → Dword := fun fl xs =>
      zx (BitVec.ofNat 32 (fp32.output fl .rne (fn.value (fp32.input fl (lo32 (xs.getD 0 0)).toNat))))
    let quo : Bool → List Dword → Dword := fun fl xs =>
      zx (BitVec.ofNat 32 (fp32.output fl .rne
        (Fl.quot (fp32.input fl (lo32 (xs.getD 0 0)).toNat) (fp32.input fl (lo32 (xs.getD 1 0)).toNat))))
    let s1 : List (Opd × Ty) := [(a, .f32)]
    let c1 : List (Opd × Ty) := [(x.expand, .f32)]
    TakesUnit (.rcp h d a) h d s1 (op .rcp) ∧ TakesUnit (.rsq h d a) h d s1 (op .rsq) ∧
    TakesUnit (.sqrt h d a) h d s1 (op .sqrt) ∧ TakesUnit (.exp2 h d a) h d s1 (op .exp2) ∧
    TakesUnit (.log2 h d a) h d s1 (op .log2) ∧ TakesUnit (.sinpi h d a) h d s1 (op .sinpi) ∧
    TakesUnit (.cospi h d a) h d s1 (op .cospi) ∧ TakesUnit (.tanh h d a) h d s1 (op .tanh) ∧
    TakesUnit (.sigm h d a) h d s1 (op .sigm) ∧ TakesUnit (.divf h d a b) h d [(a, .f32), (b, .f32)] quo ∧
    TakesUnit (.rcpC e x) hdrC e.expand c1 (op .rcp) ∧ TakesUnit (.rsqC e x) hdrC e.expand c1 (op .rsq) ∧
    TakesUnit (.sqrtC e x) hdrC e.expand c1 (op .sqrt) ∧ TakesUnit (.exp2C e x) hdrC e.expand c1 (op .exp2) ∧
    TakesUnit (.log2C e x) hdrC e.expand c1 (op .log2) ∧ TakesUnit (.tanhC e x) hdrC e.expand c1 (op .tanh) ∧
    TakesUnit (.sigmC e x) hdrC e.expand c1 (op .sigm) ∧
    TakesUnit (.divfC e x y) hdrC e.expand [(x.expand, .f32), (y.expand, .f32)] quo

/-! ### Cross-lane instructions (spec/06 R146 to R156) -/

/-- R148, R152 to R156: shuffles, votes, reductions, scans and matches see the guard-true lanes of their set. That a floating-point
reduction over one lane gives that lane's own bits is the model's choice (assumption 49). -/
def Obligations.CrossLaneResults : Prop :=
  ∀ (h : Hdr) (mode : ShflMode) (w : Width) (d : Dst) (a b : Opd) (pd q : BitVec 3) (inv ex : Bool) (op : RedOp)
    (e : Dst8) (x y : Opd8),
    let from' (m : ShflMode) (l n : Nat) : Option Nat := match m with
      | .idx => some (n % 32)
      | .up => if l < n then none else some (l - n)
      | .down => if 31 < l + n then none else some (l + n)
      | .xor => some (Nat.xor l (n % 32))
    let shfl (m : ShflMode) : Bool → Mask → (Nat → List Dword) → (Nat → Nat → Bool) → Nat → Dword := fun _ g xs _ l =>
      match from' m l (lo32 ((xs l).getD 1 0)).toNat with
      | some k => if hasLane g k then (xs k).getD 0 0 else (xs l).getD 0 0
      | none => (xs l).getD 0 0
    let bit (pr : Nat → Nat → Bool) (l : Nat) : Bool := Bool.xor (pr l q.toNat) inv
    let yes (c : Bool) : Dword := if c then 1 else 0
    let ty : Ty := if op.isFp then .f32 else widthTy w
    ComputesAcross (.shfl h mode w d a b) h (.reg d (isW64 w)) [(a, widthTy w), (b, .i32)] (shfl mode) ∧
    ComputesAcross (.shflIdxC e x y) hdrC (.reg e.expand false) [(x.expand, .i32), (y.expand, .i32)] (shfl .idx) ∧
    ComputesAcross (.shflXorC e x y) hdrC (.reg e.expand false) [(x.expand, .i32), (y.expand, .i32)] (shfl .xor) ∧
    ComputesAcross (.voteAny h pd inv q) h (.pred pd) [] (fun _ g _ pr _ => yes ((laneList g).any (bit pr))) ∧
    ComputesAcross (.voteAll h pd inv q) h (.pred pd) [] (fun _ g _ pr _ => yes ((laneList g).all (bit pr))) ∧
    ComputesAcross (.voteBallot h d inv q) h (.reg d false) [] (fun _ g _ pr _ => zx (maskOf (fun l => hasLane g l && bit pr l))) ∧
    ComputesAcross (.voteEq h pd a) h (.pred pd) [(a, .i32)] (fun _ g xs _ _ =>
      yes ((laneList g).all (fun l => (xs l).getD 0 0 == (xs (lowest g)).getD 0 0))) ∧
    ComputesAcross (.matchx h w d a) h (.reg d false) [(a, widthTy w)] (fun _ g xs _ l =>
      zx (maskOf (fun j => hasLane g j && (xs j).getD 0 0 == (xs l).getD 0 0))) ∧
    ComputesAcross (.redx h op w d a) h (.reg d (isW64 w)) [(a, ty)] (fun fl g xs _ _ =>
      treeSum (op.combine w fl) (lanes.map (fun l => if hasLane g l then some ((xs l).getD 0 0) else none))) ∧
    ComputesAcross (.scanx h ex op w d a) h (.reg d (isW64 w)) [(a, ty)] (fun fl g xs _ l =>
      match (laneList g).filter (fun k => if ex then decide (k < l) else decide (k ≤ l)) with
      | [] => op.identity w
      | k :: ks => ks.foldl (fun acc j => op.combine w fl acc ((xs j).getD 0 0)) ((xs k).getD 0 0))

/-- R150: a push lands in a guard-true lane, from the highest guard-true lane that names it, and a predicate tells each pushing lane
whether its push did not land. The destination is a hold or near register (R149). -/
def Obligations.LanePushWithinWarp : Prop :=
  ∀ (h : Hdr) (d : Dst) (a b : Opd) (pc : Option (BitVec 3)) (s : State),
    let sh : Shape := { guard := h.guard, srcs := [(a, 1), (b, 1)], dsts := d.regs 1, strand := false, seals := false }
    let tgt (l : Nat) : Nat := (b.val s.iw s.iss h.lit l .i32).toNat % 32
    let winner (j : Nat) : Option Nat :=
      if hasLane (s.on h.guard) j then ((laneList (s.on h.guard)).filter (fun l => tgt l == j)).getLast? else none
    let v (l : Nat) : Dword := a.val s.iw s.iss h.lit l .i32
    (∀ r nw, d ≠ .reg (.uniform r) nw) → s.operandsOk sh →
    ∃ t, exec (.lpush h d a b pc) s = .next t ∧ s.onlyWarp t ∧ s.setGoesOn t ∧
      { t.iw with threads := [], hold := [], near := [], nearW := [], pred := [] } =
        { s.iw with threads := [], hold := [], near := [], nearW := [], pred := [] } ∧
      (∀ l r, l < 32 → r < 256 → t.iw.getHold l r = match winner l, (Target.reg d false).holdWord r 0 with
        | some i, some _ => lo32 (v i)
        | _, _ => s.iw.getHold l r) ∧
      (∀ l r, l < 32 → r < 16 → t.iw.getNear l r = match winner l, (Target.reg d false).nearWord r 0 with
        | some i, some _ => lo32 (v i)
        | _, _ => s.iw.getNear l r) ∧
      (∀ l r, l < 32 → r < 16 → hasLane (t.iw.nearWritten r) l =
        (hasLane (s.iw.nearWritten r) l || ((winner l).isSome && ((Target.reg d false).nearWord r 0).isSome))) ∧
      (∀ l p, l < 32 → t.iw.getPred l p =
        if (match pc with
          | some q => q.toNat == p && p != 7
          | none => false) && hasLane (s.on h.guard) l then !(decide (winner (tgt l) = some l))
        else s.iw.getPred l p)

/-! ### Control flow (spec/06 R122 to R142, spec/02 R36) -/

/-- R123, R124, R126: a guard-true lane goes to its target, another to the next instruction; a warp-wide strand may not split (R246),
and a bad indirect target traps (R124). -/
def Obligations.BranchesMoveEachLane : Prop :=
  ∀ (h : Hdr) (off : Word) (offC : BitVec 24) (a : Opd) (s : State),
    let dst (l : Nat) : Dword := a.val s.iw s.iss h.lit l .i64
    let bad (t : Dword) : Prop := t.toNat % 4 ≠ 0 ∨ canonical t = false
    let goes (t : State) (g : Guard) (to' : Nat → Dword) : Prop := s.Moved t (fun l =>
      if hasLane s.iss.mask l then (s.iw.thread l).goto (if hasLane (s.on g) l then to' l else s.iss.next) else s.iw.thread l)
    let whole (g : Guard) (to' : Nat → Dword) : Prop := s.iw.wide = true → ∀ l k, hasLane s.iss.mask l = true →
      hasLane s.iss.mask k = true → (if hasLane (s.on g) l then to' l else s.iss.next) = (if hasLane (s.on g) k then to' k else s.iss.next)
    let near' (o : Dword) (_ : Nat) : Dword := canon (s.iss.pc + 4 * o)
    (s.operandsOk (Shape.plain h.guard) → whole h.guard (near' (sx off)) →
      ∃ t, exec (.bra h off) s = .next t ∧ goes t h.guard (near' (sx off))) ∧
    (s.operandsOk (Shape.plain hdrC.guard) → whole hdrC.guard (near' (offC.signExtend 64)) →
      ∃ t, exec (.braC offC) s = .next t ∧ goes t hdrC.guard (near' (offC.signExtend 64))) ∧
    (s.operandsOk (Shape.reading h.guard [(a, 2)]) → (∀ l, l < 32 → hasLane (s.on h.guard) l = true → ¬ bad (dst l)) → whole h.guard dst →
      ∃ t, exec (.brx h a) s = .next t ∧ goes t h.guard dst) ∧
    (s.operandsOk (Shape.reading h.guard [(a, 2)]) → ∀ m : Mask,
      (∀ l, l < 32 → (hasLane m l = true ↔ hasLane (s.on h.guard) l = true ∧ bad (dst l))) → m ≠ 0 →
      exec (.brx h a) s = .next (s.take (Exc.of 0x0E m)))

/-- R133 and R134 with the stack on chip: a call pushes the next address and goes to its target, a return goes to the newest entry, and
each seals its strand. -/
def Obligations.CallsAndReturnsSeal : Prop :=
  ∀ (h : Hdr) (off : Word) (a : Opd) (s : State),
    let g : Mask := s.on h.guard
    let dst (l : Nat) : Dword := a.val s.iw s.iss h.lit l .i64
    let called (t : State) (to' : Nat → Dword) : Prop :=
      ∃ u, s.onlyWarp u ∧ { u.iw with threads := [] } = { s.iw with threads := [] } ∧
        (∀ l, u.iw.thread l = if hasLane g l then (s.iw.thread l).push s.iss.next else s.iw.thread l) ∧
        (u.strandEnd s.iss.mask).Moved t (fun l =>
          if hasLane s.iss.mask l then ((u.strandEnd s.iss.mask).iw.thread l).sealAt (if hasLane g l then to' l else s.iss.next)
          else (u.strandEnd s.iss.mask).iw.thread l)
    s.iss.mask ≠ 0 →
    (s.mayIssue (Shape.sealing h.guard []) → (∀ l, hasLane g l = true → (s.iw.thread l).live < 4) →
      ∃ t, exec (.call h off) s = .next t ∧ called t (fun _ => canon (s.iss.pc + 4 * sx off))) ∧
    (s.mayIssue (Shape.sealing h.guard [(a, 2)]) → (∀ l, hasLane g l = true → (s.iw.thread l).live < 4) →
      (∀ l, l < 32 → hasLane g l = true → (dst l).toNat % 4 = 0 ∧ canonical (dst l) = true) →
      ∃ t, exec (.callx h a) s = .next t ∧ called t dst) ∧
    (s.mayIssue (Shape.sealing h.guard []) →
      (∀ l, hasLane g l = true → (s.iw.thread l).live ≠ 0 ∧ ((s.iw.thread l).live = 1 → (s.iw.thread l).depth = 0)) →
      ∃ (t u : State), exec (.ret h) s = .next t ∧ s.onlyWarp u ∧ { u.iw with threads := [] } = { s.iw with threads := [] } ∧
        (∀ l, u.iw.thread l = if hasLane g l then { s.iw.thread l with live := (s.iw.thread l).live - 1 } else s.iw.thread l) ∧
        (u.strandEnd s.iss.mask).Moved t (fun l =>
          if hasLane s.iss.mask l then ((u.strandEnd s.iss.mask).iw.thread l).sealAt
            (if hasLane g l then entryPc ((s.iw.thread l).entry (s.iw.thread l).live) else s.iss.next)
          else (u.strandEnd s.iss.mask).iw.thread l))

/-- R127 with R27: the guard-true threads end, leave the rejoin masks and lose what they have outstanding, of which a sampled operation
still ends for its record (R420); the others go on. With its
last thread a warp leaves its slot (R168), its strand ends (R245), and the last that has not ceded lets the warp be saved (R349). -/
def Obligations.ExitEndsThreads : Prop :=
  ∀ (h : Hdr) (s : State),
    let gw : Nat := s.iss.gw
    let left (g : Guard) : Mask := s.iw.live &&& ~~~ s.on g
    let stays (g : Guard) : Prop := s.iw.inPre = false ∨
      ∃ l, hasLane (left g) l = true ∧ (hasLane s.iss.mask l = true ∨ (s.iw.thread l).stat ≠ .ceded)
    let ends (i : Instr) (g : Guard) : Prop :=
      s.mayIssue (exitShape s g) → s.metKill gw (s.on g) = none →
      ∃ t, exec i s = .next t ∧
        (s.on g = 0 → s.Moved t (fun l => if hasLane s.iss.mask l then (s.iw.thread l).goto s.iss.next else s.iw.thread l)) ∧
        (s.on g ≠ 0 → left g ≠ 0 → stays g →
          { t with warps := [], flights := [], launches := [] } = { s with warps := [], flights := [], launches := [] } ∧
          t.flights = sweepFlights (s.flights.map (fun f => f.exitDrop gw (s.on g))) ∧
          (∀ x, x ≠ gw → t.warp x = s.warp x) ∧
          { t.iw with threads := [], rejoin := [], live := 0 } = { s.iw with threads := [], rejoin := [], live := 0 } ∧
          t.iw.live = left g ∧ (∀ j, j < 16 → t.iw.getJ j = s.iw.getJ j &&& ~~~ s.on g) ∧
          (∀ l, hasLane s.iss.mask l = true → hasLane (s.on g) l = false → t.iw.thread l = (s.iw.thread l).goto s.iss.next)) ∧
        (s.on g ≠ 0 → left g ≠ 0 → ¬ stays g → gw ∉ t.resident ∧
          (gw ∈ s.resident → ∃ x ∈ t.saved, x.gw = gw ∧ x.warp.live = left g)) ∧
        (s.on g ≠ 0 → left g = 0 →
          { t with warps := [], flights := [], launches := [], quads := [], cores := [], resident := [], runs := [], jobs := [],
                   savedJobs := [] } =
            { s with warps := [], flights := [], launches := [], quads := [], cores := [], resident := [], runs := [], jobs := [],
                     savedJobs := [] } ∧
          gw ∉ t.resident ∧ (∀ x, x ≠ gw → (x ∈ t.resident ↔ x ∈ s.resident)) ∧ t.iw = Warp.init ∧
          (∀ x, x ≠ gw → x ∉ s.gangOthers gw → t.warp x = s.warp x) ∧
          (∀ k, k ≠ gw / 64 → (∀ x ∈ s.gangOthers gw, x / 64 ≠ k) → t.core k = s.core k) ∧
          (∀ q, q ≠ quadOfWarp gw → (∀ x ∈ s.gangOthers gw, quadOfWarp x ≠ q) → t.quad q = s.quad q) ∧
          ((s.quad (quadOfWarp gw)).req = none → t.jobs = s.jobs ∧ t.savedJobs = s.savedJobs))
    ends (.exit h) h.guard ∧ ends .exitC hdrC.guard

/-- R36, R144, R245 and R256: a header makes its address the restart point of every thread of the set, takes its survivors from its
operands, and loses the latches and near registers of the set; it ends the strand before it, unless that is an abandoned warp-wide
strand whose own header this is; a survivor at or above the hold count traps. -/
def Obligations.StrandHeaderOpensStrand : Prop :=
  ∀ (win : BitVec 2) (mask : BitVec 64) (s : State),
    let sh : Shape := { Shape.plain hdrC.guard with strand := true }
    let u : State := if s.iw.wide = false ∧ s.iss.pc = s.iw.footAt then s else s.endWide s.iss.gw s.iss.mask
    let beyond : Prop := ∃ k, k < 64 ∧ mask.getLsbD k = true ∧ s.iw.hc ≤ 64 * win.toNat + k
    s.mayIssue sh →
    (¬ beyond → ∃ t, exec (.strand win mask) s = .next t ∧ u.onlyWarp t ∧
      { t.iw with threads := [], nearW := [], latchV := [] } = { u.iw with threads := [], nearW := [], latchV := [] } ∧
      (∀ l, t.iw.thread l = if hasLane s.iss.mask l then
          { u.iw.thread l with
            rpc := s.iss.pc, pc := s.iss.next, survW := win, survM := mask, needHdr := false, again := false,
            retired := (u.iw.thread l).retired + (u.iw.thread l).since, since := 1, stat := .ready }
        else u.iw.thread l) ∧
      (∀ k, k < 4 → t.iw.latchValid k = u.iw.latchValid k &&& ~~~ s.iss.mask) ∧
      (∀ r, r < 16 → t.iw.nearWritten r = u.iw.nearWritten r &&& ~~~ s.iss.mask)) ∧
    (beyond → exec (.strand win mask) s = .next (s.take (Exc.of 0x0D s.iss.mask)))

/-- R137 to R140 and R142: the masks are written from the guard-true lanes, waits are evaluated again after a write, `WAITJ`, `SLEEPJ`
and `WAKEJ` seal the strand; `ELECT` writes its predicate in the guard-true lanes, true in the lowest of them, false in the others. -/
def Obligations.RejoinMasksAndWaits : Prop :=
  (∀ (h : Hdr) (j : BitVec 4) (s : State),
     let g : Mask := s.on h.guard
     let m : Mask := s.iw.getJ j.toNat
     let on' (t : State) (new : Mask) : Prop := ∃ u v,
       s.Moved u (fun l => if hasLane s.iss.mask l then (s.iw.thread l).goto s.iss.next else s.iw.thread l) ∧
       u.Masked v (fun k => if k = j.toNat ∧ g ≠ 0 then new else s.iw.getJ k) ∧ (if g = 0 then t = v else v.Wakes t)
     let e : State := s.strandEnd s.iss.mask
     let blocks (t : State) (b : Mask) (st : TStat) : Prop := ∃ u,
       e.Moved u (fun l => if hasLane s.iss.mask l then
           (if hasLane b l then (e.iw.thread l).block st else (e.iw.thread l).sealAt s.iss.next)
         else e.iw.thread l) ∧ u.Wakes t
     (s.operandsOk (Shape.plain h.guard) →
       (∃ t, exec (.jset h j) s = .next t ∧ on' t g) ∧ (∃ t, exec (.jadd h j) s = .next t ∧ on' t (m ||| g)) ∧
       (∃ t, exec (.jclr h j) s = .next t ∧ on' t (m &&& ~~~ g))) ∧
     (s.iss.mask ≠ 0 → s.mayIssue { Shape.sealing h.guard [] with blocks := true } →
       (∃ t, exec (.waitj h j) s = .next t ∧ blocks t g (.waitj j.toNat s.iss.words)) ∧
       (∃ t, exec (.sleepj h j) s = .next t ∧ blocks t (g &&& m) (.sleepj j.toNat s.iss.words))) ∧
     (s.iss.mask ≠ 0 → s.mayIssue (Shape.sealing h.guard []) →
       ∃ (t u v : State), exec (.wakej h j) s = .next t ∧ s.Sealed u ∧
         u.Masked v (fun k => if k = j.toNat ∧ g ≠ 0 then 0 else u.iw.getJ k) ∧ (if g = 0 then t = v else v.Wakes t))) ∧
  (∀ (h : Hdr) (p : BitVec 3) (s : State),
     s.operandsOk (Shape.plain h.guard) →
     ∃ t, exec (.elect h p) s = .next t ∧ s.onlyWarp t ∧ s.setGoesOn t ∧
       { t.iw with threads := [], pred := [] } = { s.iw with threads := [], pred := [] } ∧
       ∀ q l, l < 32 → t.iw.getPred l q =
         if q = p.toNat ∧ q ≠ 7 ∧ hasLane (s.on h.guard) l = true then
           decide (∀ k, k < l → hasLane (s.on h.guard) k = false) else s.iw.getPred l q)

/-- R151: an other-warp push does nothing but seal when its slot is the issuer's own or empty; it waits while a target lane is not
ready; else every landing value reaches its live lane below the target warp's hold count, and the issuer seals. -/
def Obligations.LanePushToOtherWarp : Prop :=
  ∀ (h : Hdr) (r : BitVec 8) (nw : Bool) (a b slot : Opd) (s : State),
    let g : Mask := s.on h.guard
    let sh : Shape := { guard := h.guard, srcs := [(a, 1), (b, 1), (slot, 1)], dsts := [(.hold r, 1)], strand := false, seals := true }
    let tgt (l : Nat) : Nat := (b.val s.iw s.iss h.lit l .i32).toNat % 32
    let winner (j : Nat) : Option Nat := ((laneList g).filter (fun l => tgt l == j)).getLast?
    let tw : Nat := 16 * s.iss.quad + (slot.val s.iw s.iss h.lit (lowest g) .i32).toNat % 16
    let ready (l : Nat) : Prop := hasLane (s.warp tw).live l = true →
      ((s.warp tw).thread l).atBoundary = true ∧ s.holdPending tw l r.toNat = false
    let back (l : Nat) : Prop := s.iss.gw < tw ∧ hasLane (s.warp tw).live l = true ∧ ((s.warp tw).thread l).atPush = true
    s.iss.mask ≠ 0 → s.mayIssue sh →
    (g = 0 ∨ tw = s.iss.gw ∨ tw ∉ s.resident →
      ∃ t, exec (.lpushWarp h (.reg (.hold r) nw) a b slot) s = .next t ∧ s.Sealed t) ∧
    (g ≠ 0 → tw ≠ s.iss.gw → tw ∈ s.resident → (∀ l, l < 32 → (winner l).isSome = true → ¬ back l) →
      ((∀ l, l < 32 → (winner l).isSome = true → ready l) →
        ∃ (t u : State), exec (.lpushWarp h (.reg (.hold r) nw) a b slot) s = .next t ∧ u.Sealed t ∧
          { u with warps := [] } = { s with warps := [] } ∧ (∀ gw, gw ≠ tw → u.warp gw = s.warp gw) ∧
          { u.warp tw with hold := [] } = { s.warp tw with hold := [] } ∧
          (∀ l k, l < 32 → k < 256 → (u.warp tw).getHold l k = match winner l with
            | some i => if k = r.toNat ∧ nw = false ∧ hasLane (s.warp tw).live l = true ∧ r.toNat < (s.warp tw).hc then
                lo32 (a.val s.iw s.iss h.lit i .i32) else (s.warp tw).getHold l k
            | none => (s.warp tw).getHold l k)) ∧
      ((∃ l, l < 32 ∧ (winner l).isSome = true ∧ ¬ ready l) →
        ∃ t, exec (.lpushWarp h (.reg (.hold r) nw) a b slot) s = .next t ∧
          s.Moved t (fun l => if hasLane s.iss.mask l then { s.iw.thread l with stat := .stalled 1 } else s.iw.thread l)))

/-! ### Memory (spec/08) -/

/-- R178 to R187: a device load puts in flight, for every guard-true lane, the bytes at its address, extended as its width says; memory
is as the translations leave it. `LDW` loads once, for the lowest thread of the set (R189). -/
def Obligations.DeviceLoadsReadMemory : Prop :=
  ∀ (h : Hdr) (sz : MemSz) (wd : Width) (o : Ord) (d : Dst) (r : BitVec 4) (b : Opd) (s u : State) (key : Nat → Option Nat),
    let idx (l : Nat) : Nat := (lo32 (b.val s.iw s.iss h.lit l .i32)).toNat
    let sh (n : Nat) : Shape := { guard := h.guard, srcs := [(.uniform (r.setWidth 6 * 4), 4), (b, 1)], dsts := d.regs n,
                                  strand := false, seals := false }
    let got (n l : Nat) : Nat := match key l with
      | some k => u.valueAt k n
      | none => 0
    let ext (x : Nat) : Dword := match sz with
      | .i8 => zx ((BitVec.ofNat 8 x).signExtend 32)
      | .i16 => zx ((BitVec.ofNat 16 x).signExtend 32)
      | _ => BitVec.ofNat 64 x
    let regs (wide : Bool) (l : Nat) (x : Dword) : List RegW := match d with
      | .reg k false => regWrites l k wide x
      | _ => []
    let low : Mask := if hasLane (s.on h.guard) (lowest s.iss.mask) then laneBit (lowest s.iss.mask) else 0
    let n : Nat := match wd with
      | .w32 => 1
      | .w64 => 2
    (s.operandsOk (sh (if sz = .w64 then 2 else 1)) → s.Reaches (s.on h.guard) (s.iw.bufRec r) idx (ldBytes sz) false u key →
      ∃ t fl, exec (.ld h sz o d r b) s = .next t ∧ u.warpGoesOn t fl.writes ∧
        u.Launched t .load (s.on h.guard)
          ((laneList (s.on h.guard)).map (fun l => regs (sz == .w64) l (ext (got (ldBytes sz) l)))).flatten fl) ∧
    (s.operandsOk (sh n) → s.Reaches low (s.iw.bufRec r) idx (4 * n) false u key →
      ∃ t fl, exec (.ldw h wd o d r b) s = .next t ∧ u.warpGoesOn t fl.writes ∧
        u.Launched t .load low ((laneList low).map (fun l => regs (n == 2) l (BitVec.ofNat 64 (got (4 * n) l)))).flatten fl)

/-- R181, R186 and R188: a device store writes each guard-true lane's low bytes at its address, lanes in ascending order, and no other
byte of memory. -/
def Obligations.DeviceStoreWritesMemory : Prop :=
  ∀ (h : Hdr) (sz : StSz) (o : Ord) (r : BitVec 4) (b c : Opd) (s u : State) (key : Nat → Option Nat),
    let idx (l : Nat) : Nat := (lo32 (b.val s.iw s.iss h.lit l .i32)).toNat
    let ty : Ty := if sz = .w64 then .i64 else .i32
    let data (l : Nat) : List Byte := leBytes (stBytes sz) (c.val s.iw s.iss h.lit l ty).toNat
    let sh : Shape := { guard := h.guard, srcs := [(.uniform (r.setWidth 6 * 4), 4), (b, 1), (c, if sz = .w64 then 2 else 1)],
                        dsts := [], strand := false, seals := false }
    let v : State := u.storeAll key data (laneList (s.on h.guard))
    s.operandsOk sh → s.Reaches (s.on h.guard) (s.iw.bufRec r) idx (stBytes sz) true u key →
    ∃ t fl, exec (.st h sz o r b c) s = .next t ∧ v.Launched t .store (s.on h.guard) [] fl ∧ v.warpGoesOn t [] ∧
      ∀ x, (∀ l k, hasLane (s.on h.guard) l = true → key l = some k → ¬ (k ≤ x ∧ x < k + stBytes sz)) → t.byte x = u.byte x

/-- R190 to R192: scratchpad loads read the lanes' places; their data lands 6 clocks after the last bank pass (R173), or for the
tract's form 20 clocks after issue at the earliest. That the bytes are read at issue (assumption 3) and that the passes of an access
follow those of the quadrant's earlier one (assumption 54) are the model's choices. -/
def Obligations.ScratchpadLoads : Prop :=
  ∀ (h : Hdr) (sz : MemSz) (o : Ord) (core : BitVec 2) (d : Dst) (a b : Opd) (s : State) (key : Nat → Nat),
    let g : Mask := s.on h.guard
    let val (x : Opd) (l : Nat) : Dword := x.val s.iw s.iss h.lit l .i32
    let sh : Shape := { guard := h.guard, srcs := [(a, 1), (b, 1)], dsts := d.regs (if sz = .w64 then 2 else 1),
                        strand := false, seals := false }
    let ext (x : Nat) : Dword := match sz with
      | .i8 => zx ((BitVec.ofNat 8 x).signExtend 32)
      | .i16 => zx ((BitVec.ofNat 16 x).signExtend 32)
      | _ => BitVec.ofNat 64 x
    let ws : List RegW := ((laneList g).map (fun l => match d with
      | .reg k false => regWrites l k (sz == .w64) (ext (s.valueAt (key l) (ldBytes sz)))
      | _ => [])).flatten
    let last : Nat := max s.iss.clk (s.quad s.iss.quad).bankFree + (s.passes ((laneList g).map (fun l => (l, key l))) - 1)
    let q : State := s.setQuad s.iss.quad { s.quad s.iss.quad with bankFree := last + 1 }
    s.operandsOk sh →
    (s.ReachesScr g (fun l => s.ldsAddr (val a l) (val b l) (ldBytes sz)) key →
      ∃ t fl, exec (.lds h sz o d a b) s = .next t ∧ q.Launched t .load g ws fl ∧ fl.due = last + 6 ∧ fl.exact = true ∧
        q.warpGoesOn t fl.writes) ∧
    (s.ReachesScr g (fun l => s.ldxAddr core (val a l) (val b l) (ldBytes sz)) key →
      (∀ l, hasLane g l = true → s.ldxWaits core (scrOff (val a l) (val b l)) = false) →
      ∃ t fl, exec (.ldx h sz o core d a b) s = .next t ∧ s.Launched t .load g ws fl ∧ fl.due = s.iss.clk + 20 ∧
        fl.exact = false ∧ s.warpGoesOn t fl.writes)

/-- R188 and R190 to R192: scratchpad stores write the lanes' places in ascending order and no other byte; the form for the own core
takes the quadrant's port for its passes. That the bytes are written at issue (assumption 3) and that the passes follow those of the
quadrant's earlier access (assumption 54) are the model's choices. -/
def Obligations.ScratchpadStores : Prop :=
  ∀ (h : Hdr) (sz : StSz) (o : Ord) (core : BitVec 2) (a b c : Opd) (s : State) (key : Nat → Nat),
    let g : Mask := s.on h.guard
    let val (x : Opd) (l : Nat) : Dword := x.val s.iw s.iss h.lit l .i32
    let ty : Ty := if sz = .w64 then .i64 else .i32
    let data (l : Nat) : List Byte := leBytes (stBytes sz) (c.val s.iw s.iss h.lit l ty).toNat
    let sh : Shape := { guard := h.guard, srcs := [(a, 1), (b, 1), (c, if sz = .w64 then 2 else 1)], dsts := [], strand := false,
                        seals := false }
    let v : State := s.storeAll (fun l => some (key l)) data (laneList g)
    let last : Nat := max s.iss.clk (s.quad s.iss.quad).bankFree + (s.passes ((laneList g).map (fun l => (l, key l))) - 1)
    let q : State := v.setQuad s.iss.quad { s.quad s.iss.quad with bankFree := last + 1 }
    let on' (l : Nat) : Thread := if hasLane s.iss.mask l then (s.iw.thread l).goto s.iss.next else s.iw.thread l
    let kept (t : State) : Prop := ∀ x, (∀ l, hasLane g l = true → ¬ (key l ≤ x ∧ x < key l + stBytes sz)) → t.byte x = s.byte x
    s.operandsOk sh →
    (s.ReachesScr g (fun l => s.ldsAddr (val a l) (val b l) (stBytes sz)) key →
      ∃ t, exec (.sts h sz o a b c) s = .next t ∧ q.Moved t on' ∧ kept t) ∧
    (s.ReachesScr g (fun l => s.ldxAddr core (val a l) (val b l) (stBytes sz)) key →
      (∀ l, hasLane g l = true → s.ldxWaits core (scrOff (val a l) (val b l)) = false) →
      ∃ t, exec (.stx h sz o core a b c) s = .next t ∧ v.Moved t on' ∧ kept t)

/-- R195 to R198: the atomics of a set are performed lane by lane in ascending order, each lane's old value is in flight to its
register, and the strand seals; and what each leaves at its address, from the old value, the operand and the compare value. That they
are performed at issue (assumption 3) and that the passes follow those of an earlier access (assumption 54) are the model's choices. -/
def Obligations.AtomicsReadModifyWrite : Prop :=
  (∀ (gd : Guard) (op : AtomOp) (w : Width) (o : AtomOrd) (sc : Scope) (d : Dst) (r : BitVec 4) (a b c : Opd) (s u : State)
     (key : Nat → Option Nat) (skey : Nat → Nat),
     let g : Mask := s.on gd
     let val (x : Opd) (l : Nat) : Dword := x.val s.iw s.iss 0 l .i32
     let dsts : List (DReg × Nat) := d.regs (atomRegs w)
     let sh : Shape := { guard := gd, srcs := [(.uniform (r.setWidth 6 * 4), 4), (b, 1), (c, atomSrc op w)], dsts := dsts,
                         strand := false, seals := true }
     let shs : Shape := { guard := gd, srcs := [(a, 1), (b, 1), (c, atomSrc op w)], dsts := dsts, strand := false, seals := true }
     let x : Nat → Dword × Dword := atomArgs s.iw s.iss op w c
     let regs (e : Nat × Nat) : List RegW := match d with
       | .reg k false => regWrites e.1 k (w == .w64) (BitVec.ofNat 64 e.2)
       | _ => []
     let p : State × List (Nat × Nat) := u.rmwAll key op w x (laneList g)
     let ps : State × List (Nat × Nat) := s.rmwAll (fun l => some (skey l)) op w x (laneList g)
     let locs : List (Nat × Nat) := (laneList g).map (fun l => (l, skey l))
     let last : Nat := max s.iss.clk (s.quad s.iss.quad).bankFree + (s.passes locs - 1)
     let q : State := ps.1.setQuad s.iss.quad { s.quad s.iss.quad with bankFree := last + 1 }
     (s.mayIssue sh → s.Reaches g (s.iw.bufRec r) (fun l => (lo32 (val b l)).toNat) (atomBytes w) true u key →
       ∃ t v fl, exec (.atom gd op w o sc d r b c) s = .next t ∧ p.1.Launched v .atomic g (p.2.map regs).flatten fl ∧
         p.1.marksOnly v fl.writes ∧ v.Sealed t) ∧
     (s.mayIssue shs → s.ReachesScr g (fun l => s.ldsAddr (val a l) (val b l) (atomBytes w)) skey →
       ∃ t v fl, exec (.atoms gd op w o sc d a b c) s = .next t ∧ q.Launched v .atomic g (ps.2.map regs).flatten fl ∧
         fl.due = last + 10 + repeats locs ∧ fl.exact = true ∧ q.marksOnly v fl.writes ∧ v.Sealed t)) ∧
  (∀ (w : Width) (old x cmp : Dword),
     let n (y : Dword) : Nat := nNat w y
     let z (y : Dword) : Int := sInt w y
     atomNew .add w old x cmp = trunc w (old + x) ∧
     atomNew .min w old x cmp = trunc w (if z x < z old then x else old) ∧
     atomNew .max w old x cmp = trunc w (if z old < z x then x else old) ∧
     atomNew .minn w old x cmp = trunc w (if n x < n old then x else old) ∧
     atomNew .maxn w old x cmp = trunc w (if n old < n x then x else old) ∧
     atomNew .and w old x cmp = trunc w (old &&& x) ∧
     atomNew .or w old x cmp = trunc w (old ||| x) ∧
     atomNew .xor w old x cmp = trunc w (old ^^^ x) ∧
     atomNew .xchg w old x cmp = trunc w x ∧
     atomNew .cas w old x cmp = trunc w (if n old = n cmp then x else old) ∧
     atomNew .fadd .w32 old x cmp = BitVec.ofNat 64 (fp32.round .rne
       (Fl.add .rne (fp32.decode (lo32 old).toNat) (fp32.decode (lo32 x).toNat))))

/-- R199 and R200: a fence does not issue while an access that it orders is unperformed, and has no further effect in this model, whose
accesses are performed in one order. -/
def Obligations.FenceWaitsForAccesses : Prop :=
  ∀ (h : Hdr) (k : FenceKind) (sc : Scope) (s : State),
    let mine (f : Flight) : Prop := f.gw = s.iss.gw ∧ f.mask &&& s.on h.guard ≠ 0
    let reads : Prop := ∃ f ∈ s.flights, mine f ∧ (f.kind = .load ∨ f.kind = .atomic)
    let writes : Prop := (∃ f ∈ s.flights, mine f ∧ f.kind = .store) ∨
      (∃ x ∈ s.held, x.num = s.iw.num ∧ hasLane (s.on h.guard) x.lane = true ∧ s.iw.ofParcel x.vdev x.lseq x.pseq = true)
    let pending : Prop := match k with
      | .acq => reads
      | .rel | .ar => reads ∨ writes
    s.operandsOk (Shape.plain h.guard) →
    (¬ pending → ∃ t, exec (.fence h k sc) s = .next t ∧
      s.Moved t (fun l => if hasLane s.iss.mask l then (s.iw.thread l).goto s.iss.next else s.iw.thread l)) ∧
    (pending → ∃ t, exec (.fence h k sc) s = .next t ∧
      s.Moved t (fun l => if hasLane s.iss.mask l then { s.iw.thread l with stat := .stalled 0 } else s.iw.thread l))

/-- R201 to R204: lookups answer payload and lowest matching slot or the miss code, 2 clocks after the last service clock of a table
that serves 8 lanes a clock and one instruction at a time; inserts and invalidations change the slots that lanes name, the higher
lane's effect standing; a slot outside the share or the declared range traps, and the lanes that pass are performed (R207). -/
def Obligations.TagTableOperations : Prop :=
  ∀ (h : Hdr) (d : Dst) (a b c : Opd) (s : State),
    let g : Mask := s.on h.guard
    let gq : Mask := d.lanes s.iss.mask g
    let val (x : Opd) (l : Nat) : Word := lo32 (x.val s.iw s.iss h.lit l .i32)
    let me : Nat := coreOfQuad s.iss.quad
    let base : Nat := s.tagShare.1
    let ent (k : Nat) : Dword := NMap.get 0 (s.core me).tags (base + k)
    let hit (key : Word) (k : Nat) : Bool := (ent k).getLsbD 63 && field (ent k) 47 16 == key.toNat
    let answer (key : Word) : Word := match (List.range s.tagShare.2).find? (hit key) with
      | some k => BitVec.ofNat 32 (field (ent k) 15 0 * 65536 + k)
      | none => 0xFFFF
    let fin (n : Nat) : Nat := max s.round (s.core me).tagFree + (n + 7) / 8
    let served (n : Nat) : State := s.setCore me { s.core me with tagFree := fin n }
    let slot (l : Nat) : Nat := (val a l).toNat
    let names (k l : Nat) : Bool := base + slot l == k
    let whole (m : Mask) : Bool := s.iw.wide && m != 0
    let good (m : Mask) : Mask := if whole m then 0 else g &&& ~~~ m
    let wrote (t : State) (m : Mask) (new : Nat → Nat → Dword) : Prop :=
      (∀ k, NMap.get 0 (t.core me).tags k = match ((laneList (good m)).filter (names k)).getLast? with
        | some l => new k l
        | none => NMap.get 0 (s.core me).tags k) ∧
      { t.core me with tags := [] } =
        { (if good m = 0 then s else served (laneCount (good m))).core me with tags := [] } ∧
      (∀ k, k ≠ me → t.core k = s.core k) ∧
      { t with warps := [], cores := [] } = { s with warps := [], cores := [] } ∧
      (∀ l, t.iw.thread l = if whole m = false ∧ hasLane s.iss.mask l = true ∧ hasLane m l = false then (s.iw.thread l).goto s.iss.next
        else s.iw.thread l) ∧
      { t.iw with threads := [] } = { s.iw with threads := [] } ∧ ∀ gw, gw ≠ s.iss.gw → t.warp gw = s.warp gw
    let inserted (_ l : Nat) : Dword := BitVec.ofNat 64 (2 ^ 63 + (val b l).toNat * 2 ^ 16 + (val c l).toNat % 2 ^ 16)
    let cleared (k _ : Nat) : Dword := NMap.get 0 (s.core me).tags k &&& 0x7FFFFFFFFFFFFFFF
    g ≠ 0 →
    (s.operandsOk { guard := h.guard, srcs := [(a, 1)], dsts := d.regs 1, strand := false, seals := false } →
      (gq ≠ 0 → ∃ t fl, exec (.tagq h d a) s = .next t ∧
        (served (laneCount gq)).Launched t .tagq gq (s.writesOf h.guard d (fun l => zx (answer (val a l)))) fl ∧
        fl.due = s.iss.clk + (fin (laneCount gq) - 1 - s.round) + 2 ∧ fl.exact = true ∧
        (served (laneCount gq)).warpGoesOn t fl.writes) ∧
      (gq = 0 → ∃ t, exec (.tagq h d a) s = .next t ∧
        s.Moved t (fun l => if hasLane s.iss.mask l then (s.iw.thread l).goto s.iss.next else s.iw.thread l))) ∧
    (s.operandsOk (Shape.reading h.guard [(a, 1), (b, 1), (c, 1)]) → ∀ m : Mask,
      (∀ l, l < 32 → (hasLane m l = true ↔ hasLane g l = true ∧ s.tagOut (slot l) = true)) →
      (m = 0 → ∃ t, exec (.tagi h a b c) s = .next t ∧ wrote t 0 inserted) ∧
      (m ≠ 0 → ∃ u, exec (.tagi h a b c) s = .next (u.take (Exc.of 0x0D m)) ∧ wrote u m inserted)) ∧
    (s.operandsOk (Shape.reading h.guard [(a, 1)]) → ∀ m : Mask,
      (∀ l, l < 32 → (hasLane m l = true ↔ hasLane g l = true ∧ s.tagOut (slot l) = true)) →
      (m = 0 → ∃ t, exec (.tagx h a) s = .next t ∧ wrote t 0 cleared) ∧
      (m ≠ 0 → ∃ u, exec (.tagx h a) s = .next (u.take (Exc.of 0x0D m)) ∧ wrote u m cleared))

/-! ### Exceptions (spec/09) -/

/-- R128, R206, R208, R222 and R414: `TRAP`, and `BRK` with no debugger, take the guard-true threads (in a warp-wide strand the whole
set) into the warp's handler with their trap state saved; the whole warp loses its latches and near values, and keeps its other
registers. With a debugger attached, `BRK` parks its threads at their restart PCs on a record in the debugger's queue; a thread that
the debugger has released at it passes it once (R414). That the restart PC goes to the handler with the PC is the model's reading
(assumption 9). -/
def Obligations.TrapsAndBreakpointsStopThreads : Prop :=
  (∀ (h : Hdr) (a : Opd) (s : State),
     let g : Mask := s.on h.guard
     let gb : Mask := g &&& ~~~ s.iw.passing s.iss
     let v : Nat := s.iw.vdev
     let whole (m : Mask) : Mask := if s.iw.wide then s.iss.mask else m
     let entered (i : Instr) (m : Mask) (cause : Byte) : Prop := m ≠ 0 → s.iw.enters (whole m) = true →
       ∃ t, exec i s = .next t ∧ (t.contract v).fseqc = (s.contract v).fseqc + 1 ∧
       (∀ l, hasLane (whole m) l = true → t.iw.thread l =
         { s.iw.thread l with
           trap := { pc := (s.iw.thread l).pc, len := BitVec.ofNat 2 s.iss.words, fseq := (s.contract v).fseqc + 1, cause := cause,
                     inTrap := true, rpc := (s.iw.thread l).rpc, survM := (s.iw.thread l).survM, survW := (s.iw.thread l).survW,
                     since := (s.iw.thread l).since },
           pc := s.iw.handler, rpc := s.iw.handler, needHdr := true, again := false, since := 0, stat := .ready }) ∧
       (∀ k, k < 4 → t.iw.latchValid k = 0) ∧ (∀ r, r < 16 → t.iw.nearWritten r = 0) ∧
       t.iw.hold = s.iw.hold ∧ t.iw.near = s.iw.near ∧ t.iw.uni = s.iw.uni ∧ t.iw.pred = s.iw.pred ∧ t.iw.rejoin = s.iw.rejoin ∧
       t.iw.live = s.iw.live ∧ t.iw.handler = s.iw.handler
     (s.operandsOk (Shape.reading h.guard [(a, 1)]) → entered (.trap h a) g 0x20) ∧
     (s.operandsOk (Shape.plain h.guard) → (s.contract v).attached = false → entered (.brk h) gb 0x21)) ∧
  (∀ (h : Hdr) (s : State),
     let gb : Mask := s.on h.guard &&& ~~~ s.iw.passing s.iss
     let m : Mask := if s.iw.wide then s.iss.mask else gb
     let v : Nat := s.iw.vdev
     s.operandsOk (Shape.plain h.guard) →
     (gb = 0 → ∃ t, exec (.brk h) s = .next t ∧
       s.Moved t (fun l => if hasLane s.iss.mask l then (s.iw.thread l).goto s.iss.next else s.iw.thread l)) ∧
     (gb ≠ 0 → (s.contract v).attached = true →
       ∃ t, exec (.brk h) s = .next t ∧ (t.contract v).fseqc = (s.contract v).fseqc + 1 ∧
         (∀ l, hasLane m l = true → t.iw.thread l =
           { s.iw.thread l with
             pc := (s.iw.thread l).rpc, since := 0, stat := .parked ((s.contract v).fseqc + 1) true, bpStop := some (s.iw.thread l).pc }) ∧
         t.iw.hold = s.iw.hold ∧ t.iw.uni = s.iw.uni ∧ t.iw.pred = s.iw.pred ∧ t.iw.live = s.iw.live))

/-- R206, R225 and R341: a program error that no handler takes ends the parcel: no warp and no job of it stays on the part, and it is
ENDED with the cause. -/
def Obligations.UnhandledErrorEndsParcel : Prop :=
  ∀ (h : Hdr) (a : Opd) (s : State) (p : Parcel),
    let g : Mask := s.on h.guard
    let m : Mask := if s.iw.wide then s.iss.mask else g
    let v : Nat := s.iw.vdev
    let n : Word := s.iw.lseq
    let k : Nat := s.iw.pseq
    s.operandsOk (Shape.reading h.guard [(a, 1)]) → g ≠ 0 → s.iw.enters m = false → s.parcel? v n k = some p →
    ∃ t y, exec (.trap h a) s = .next t ∧ (∀ gw ∈ t.resident, (t.warp gw).ofParcel v n k = false) ∧
      (∀ j ∈ t.jobs, ¬ (j.vdev = v ∧ j.lseq = n ∧ j.pseq = k)) ∧ t.parcel? v n k = some y ∧ y.state = .ended ∧ y.cause = 0x20

/-- R222 and R224: a guard-true thread in the trap handler comes back with its restart PC and survivors, at its restart PC or behind
the stopping instruction, and others of the set go on; a warp-wide strand that stood behind the handler goes on with `.skip`, and is
abandoned with `.restart` (R42, R245); after the entry that a trap makes a thread has its own restart PC and survivors again. Threads
outside the handler trap `NOT_IN_TRAP`. That a return owes no header, also after the trap of a missing one, is the model's choice
(assumption 50). -/
def Obligations.TrapReturnRestores : Prop :=
  (∀ (h : Hdr) (s : State),
     let g : Mask := s.on h.guard
     let back (t : Thread) (pc : Dword) (since : Dword) : Thread :=
       { t with
         pc := pc, rpc := t.trap.rpc, survM := t.trap.survM, survW := t.trap.survW, needHdr := false, again := false,
         retired := t.retired + t.since + 1, since := since, trap := { t.trap with inTrap := false }, stat := .ready }
     let f (l : Nat) (new : Thread) : Thread :=
       if hasLane g l then new else if hasLane s.iss.mask l then (s.iw.thread l).goto s.iss.next else s.iw.thread l
     let tr (l : Nat) : TrapState := (s.iw.thread l).trap
     let again (l : Nat) : Thread := f l (back (s.iw.thread l) (tr l).rpc 0)
     let past (l : Nat) : Thread := f l (back (s.iw.thread l) ((tr l).pc + BitVec.ofNat 64 (4 * (tr l).len.toNat)) (tr l).since)
     let wideAgain (u : State) : State := u.setIw { u.iw with wide := true, trapWide := false }
     s.operandsOk (Shape.plain h.guard) →
     ((∀ l, hasLane g l = true → (tr l).inTrap = true) →
       (g = 0 ∨ s.iw.trapWide = false →
         (∃ t, exec (.trapretRestart h) s = .next t ∧ s.Moved t again) ∧ ∃ t, exec (.trapretSkip h) s = .next t ∧ s.Moved t past) ∧
       (g ≠ 0 → s.iw.trapWide = true →
         (∃ u, s.Moved u again ∧ exec (.trapretRestart h) s = .next ((wideAgain u).abandonStrand s.iss.gw)) ∧
         ∃ u, s.Moved u past ∧ exec (.trapretSkip h) s = .next (wideAgain u))) ∧
     -- threads outside the handler
     (∀ m : Mask, m ≠ 0 → (∀ l, l < 32 → (hasLane m l = true ↔ hasLane g l = true ∧ (tr l).inTrap = false)) →
       let stay (now : Nat → Thread) (l : Nat) : Thread := if hasLane m l then s.iw.thread l else now l
       (s.iw.wide = true → exec (.trapretRestart h) s = .next (s.take (Exc.of 0x23 m)) ∧
         exec (.trapretSkip h) s = .next (s.take (Exc.of 0x23 m))) ∧
       (s.iw.wide = false → m = g ∨ s.iw.trapWide = false →
         (∃ u, s.Moved u (stay again) ∧ exec (.trapretRestart h) s = .next (u.takeAll [Exc.of 0x23 m])) ∧
         ∃ u, s.Moved u (stay past) ∧ exec (.trapretSkip h) s = .next (u.takeAll [Exc.of 0x23 m])))) ∧
  (∀ (t : Thread) (len : Nat) (fseq : Word) (cause : Byte) (handler : Dword),
     let u : Thread := (t.enterTrap len fseq cause handler).trapReturn false
     let x : Thread := (t.enterTrap len fseq cause handler).trapReturn true
     u.pc = t.rpc ∧ u.rpc = t.rpc ∧ u.survM = t.survM ∧ u.survW = t.survW ∧ u.trap.inTrap = false ∧ u.trap.fseq = fseq ∧
       x.pc = t.pc + BitVec.ofNat 64 (4 * (len % 4)) ∧ x.rpc = t.rpc ∧ x.since = t.since)

/-- R211 and R212: where a record holds its number, its cause, its flags, the place of the warp, the lanes, the launch, the PCs, the pages,
the argument of `TRAP` and, in the engine form, the job's numbers, closure, handle and coordinates. A form that states dword 3 or
dwords 4 to 7 whole (R360) holds them there. -/
def Obligations.FaultRecordLayout : Prop :=
  ∀ (r : Rec) (fseq : Word),
    let d (k : Nat) : Dword := (r.dwords fseq).getD k 0
    let q : Nat := quadOfWarp r.gw
    let bit (b : Bool) : Nat := if b then 1 else 0
    r.gw < 24576 → r.pages.length ≤ 8 →
    field (d 0) 63 32 = fseq.toNat ∧ field (d 0) 31 24 = r.cause.toNat ∧ field (d 0) 23 23 = 0 ∧
    field (d 0) 22 22 = bit r.hndl ∧ field (d 0) 21 21 = bit r.ovr ∧ field (d 0) 20 20 = bit r.async ∧
    field (d 0) 19 19 = bit r.prov ∧ field (d 0) 18 18 = bit r.gexit ∧ field (d 0) 17 17 = bit r.edit ∧
    field (d 0) 16 16 = bit r.runa ∧ field (d 0) 15 12 = q / 192 ∧ field (d 0) 11 8 = q / 16 % 12 ∧ field (d 0) 7 6 = q / 4 % 4 ∧
    field (d 0) 5 4 = q % 4 ∧ field (d 0) 3 0 = r.gw % 16 ∧
    field (d 1) 63 32 = r.mask.toNat ∧ field (d 1) 31 0 = r.lseq.toNat ∧
    field (d 2) 63 60 = r.pages.length ∧ field (d 2) 59 55 = 0 ∧ field (d 2) 54 0 = field r.pc 56 2 ∧
    (r.d3 = none → field (d 3) 54 0 = field r.spc 56 2 ∧ field (d 3) 63 55 = field (r.pages.getD 0 0) 56 48) ∧
    (∀ x, r.d3 = some x → d 3 = x) ∧
    (r.tail = none → ∀ k, k < 4 → field (d (4 + k)) 31 0 = field (r.pages.getD (2 * k) 0) 47 16 ∧
      field (d (4 + k)) 63 32 = field (r.pages.getD (2 * k + 1) 0) 47 16) ∧
    (∀ x k, r.tail = some x → d (4 + k) = x.getD k 0) ∧
    -- the argument of a `TRAP`, and the engine form
    (∀ (s : State) (a : Word) (m : Mask) (hndl : Bool) (k : Nat),
      (((s.recOf { Exc.of 0x20 m with arg := some a } hndl).dwords fseq).getD (4 + k) 0) = if k = 0 then a.setWidth 64 else 0) ∧
    (∀ (s : State) (j : Job) (cause : Byte) (page : Option Dword),
      let e (k : Nat) : Dword := ((s.jobRec j cause page).dwords fseq).getD k 0
      let coord (k : Nat) : Nat := (j.coord.getD k 0).toNat
      j.gw < 24576 →
      field (e 0) 20 20 = 1 ∧ field (e 2) 63 60 = page.toList.length ∧ field (e 3) 63 55 = field (page.getD 0) 56 48 ∧
      field (e 4) 63 32 = j.jseq.toNat ∧ field (e 4) 31 0 = field (page.getD 0) 47 16 ∧ field (e 5) 31 0 = j.handle.toNat ∧
      (j.clo = none → field (e 5) 63 32 = 0) ∧
      (∀ c off key, j.clo = some (c, off, key) → off < 2 ^ 23 →
        field (e 5) 56 55 = c % 4 ∧ field (e 5) 54 32 = off ∧ field (e 5) 63 57 = 0) ∧
      field (e 6) 31 0 = coord 0 ∧ field (e 6) 63 32 = coord 1 ∧ field (e 7) 31 0 = coord 2 ∧ field (e 7) 63 32 = coord 3)

/-- R59 with R40, R24, R33, R51 and R141: the order of the checks that every instruction meets before it acts. That a blocking instruction
at which a saved thread resumes needs no header (assumption 18), and that a uniform destination whose lowest thread is guard-false reads
no source (assumption 49), are the model's choices. -/
def Obligations.OperandCheckOrder : Prop :=
  ∀ (sh : Shape) (w : Warp) (set : Mask),
    let uni : Prop := ∃ r n, (DReg.uniform r, n) ∈ sh.dsts
    let g : Mask := w.guarded set sh.guard
    let some' (p : Thread → Prop) : Prop := ∃ l, l < 32 ∧ hasLane set l = true ∧ p (w.thread l)
    let header : Prop := sh.strand = false ∧ some' (fun t => t.needHdr = true ∧ ¬ (t.again = true ∧ sh.blocks = true))
    let beyond : Prop := (∃ x ∈ sh.srcs, w.hc < x.1.holdTop x.2) ∨ (∃ x ∈ sh.dsts, w.hc < x.1.holdTop x.2)
    let clobber : Prop := some' (fun t => ∃ r n k, (DReg.hold r, n) ∈ sh.dsts ∧ k < n ∧ t.survives (r.toNat + k) = true)
    let lost (l : Nat) : Prop := hasLane g l = true ∧ (uni → sh.xlane = false → hasLane g (lowest set) = true) ∧ ∃ x ∈ sh.srcs, x.1.stale w l x.2 = true
    (header → sh.check w set = some (Exc.of 0x07 set)) ∧
    (¬ header → beyond → sh.check w set = some (Exc.of 0x0D set)) ∧
    (¬ header → ¬ beyond → clobber → sh.check w set = some (Exc.of 0x06 set)) ∧
    (¬ header → ¬ beyond → ¬ clobber → ∀ m : Mask, (∀ l, l < 32 → (hasLane m l = true ↔ lost l)) →
      sh.check w set = if m = 0 then none else some (Exc.of 0x05 m))

/-- R39, R41, R245, R254 and R256: at the end of a gang strand an instruction that seals waits until every other member stands at the
end of its own; an end outside replay and outside a warp-wide strand changes nothing beyond its threads and the footprints that an
abandoned strand has left; in a warp-wide strand the committed image takes the working one and the footprints go, and the members of
its gangs commit with it, their strand over where they stand. Behind the trap handler the footprints stay. That the members commit
where they stand, and that a strand with several gangs waits for all of them, are the model's readings (assumption 31). -/
def Obligations.StrandEndsWaitAndCommit : Prop :=
  (∀ (h : Hdr) (j : BitVec 4) (a : Opd) (r : SReg) (off : Word) (win : BitVec 2) (mask : BitVec 64) (s : State),
     let waits (sh : Shape) (i : Instr) : Prop :=
       s.operandsOk sh → s.iw.wide = true → s.iw.trapWide = false → s.iw.gangGrps ≠ [] →
       (∃ x ∈ s.gangOthers s.iss.gw, (s.warp x).gangEnd = false) →
       ∃ t, exec i s = .next t ∧ s.onlyWarp t ∧
         { t.iw with threads := [] } = { s.iw with threads := [], gangEnd := true } ∧
         ∀ l, t.iw.thread l = if hasLane s.iss.mask l then { s.iw.thread l with stat := .stalled 0 } else s.iw.thread l
     let sealing : Shape := Shape.sealing h.guard []
     let source : Shape := Shape.sealing h.guard [(a, 2)]
     waits { Shape.plain hdrC.guard with strand := true } (.strand win mask) ∧
     waits { sealing with blocks := true } (.waitj h j) ∧ waits { sealing with blocks := true } (.sleepj h j) ∧
     waits sealing (.wakej h j) ∧ waits sealing (.call h off) ∧ waits source (.callx h a) ∧ waits sealing (.ret h) ∧
     waits sealing (.trig h) ∧ waits source (.srw h r a) ∧ waits sealing (.cedeHold h) ∧ waits sealing (.cedeOpen h) ∧
     waits sealing (.cede h)) ∧
  (∀ (s : State) (m : Mask),
     let q : Nat := quadOfWarp s.iss.gw
     let t : State := s.strandEnd m
     let others : List Nat := s.gangOthers s.iss.gw
     let kept : Prop := s.iw.trapWide = true ∨
       ∃ l, hasLane s.iw.live l = true ∧ ((hasLane m l = false ∧ (s.iw.thread l).rpc = s.iw.footAt) ∨
         ((s.iw.thread l).trap.inTrap = true ∧ (s.iw.thread l).trap.rpc = s.iw.footAt))
     (∀ x, s.launch? s.iw.vdev s.iw.lseq = some x → x.replay = false ∨ (x.rmode ≠ 1 ∧ x.rmode ≠ 2)) →
     (s.iw.wide = false → (s.iw.foot = [] → t = s) ∧ (s.iw.foot ≠ [] → kept → t = s.setIw s.iw) ∧
       (s.iw.foot ≠ [] → ¬ kept → t = s.setIw { s.iw with foot := [] })) ∧
     (s.iw.wide = true →
       { t with warps := [], quads := [], flights := [] } = { s with warps := [], quads := [], flights := [] } ∧
       (∀ k, (k = q ∨ ∃ x ∈ others, quadOfWarp x = k) → t.quad k = { s.quad k with commit := (s.quad k).work }) ∧
       (∀ k, k ≠ q → (∀ x ∈ others, quadOfWarp x ≠ k) → t.quad k = s.quad k) ∧
       t.iw = { s.iw with wide := false, foot := if s.iw.trapWide then s.iw.foot else [], gangGrps := [], gangEnd := false } ∧
       (∀ x ∈ others,
         { t.warp x with threads := [] } =
           { s.warp x with threads := [], wide := false, foot := [], gangGrps := [], gangEnd := false } ∧
         ∀ l, (t.warp x).thread l = if hasLane (s.warp x).live l then
             { (s.warp x).thread l with
               rpc := ((s.warp x).thread l).pc, retired := ((s.warp x).thread l).retired + ((s.warp x).thread l).since, since := 0 }
           else (s.warp x).thread l) ∧
       ∀ x, x ≠ s.iss.gw → x ∉ others → t.warp x = s.warp x))

/-! ### Special registers and the system family (spec/09, spec/18, spec/22) -/

/-- R226, R394 and R395: `SRR` writes a special register's 64 bits to a pair, as a fixed-latency result, and where each register holds its
fields. The new k1 of a uniform pair whose lowest thread is guard-false is the model's choice (assumption 49). -/
def Obligations.SpecialRegisterReads : Prop :=
  ∀ (h : Hdr) (r : SReg) (d : Dst) (s : State),
    let tgt : Target := .reg d true
    let t (l : Nat) : Thread := s.iw.thread l
    let q : Nat := s.iss.quad
    let bit (b : Bool) : Nat := if b then 1 else 0
    tgt.ok = true → s.operandsOk (aluShape h tgt []) →
    (∃ t, exec (.srr h r d) s = .next t ∧ s.Wrote t h.guard tgt (s.uniLane h.guard) (s.sreg r) (s.k1 tgt (s.sreg r))) ∧
    ∀ l, l < 32 → s.iss.slot < 16 → q < 1536 → s.iw.vdev < 65536 → s.iw.lq < 16 → s.iw.pseq < 1024 → (t l).live ≤ 4 →
      (s.sreg .laneid l).toNat = l ∧ (s.sreg .warpslot l).toNat = s.iss.slot ∧ (s.sreg .quad l).toNat = q % 4 ∧
      (s.sreg .core l).toNat = q / 4 % 4 ∧ (s.sreg .tract l).toNat = q / 16 % 12 ∧ (s.sreg .die l).toNat = q / 192 ∧
      (s.sreg .groups l).toNat = s.iw.groups.toNat ∧
      field (s.sreg .launch l) 47 32 = s.iw.vdev ∧ field (s.sreg .launch l) 31 0 = s.iw.lseq.toNat ∧
      field (s.sreg .parcel l) 15 12 = s.iw.lq ∧ field (s.sreg .parcel l) 9 0 = s.iw.pseq ∧
      (s.sreg .strandpc l).toNat % 4 = 0 ∧ field (s.sreg .strandpc l) 56 2 = field (t l).rpc 56 2 ∧
      (s.sreg .cspbase l).toNat % 16 = 0 ∧
      field (s.sreg .cspdepth l) 47 32 = s.iw.stride.toNat ∧ field (s.sreg .cspdepth l) 18 16 = (t l).live ∧
      field (s.sreg .cspdepth l) 15 0 = (t l).depth.toNat ∧ s.sreg .retired l = (t l).retired ∧
      s.sreg .clock l = BitVec.ofNat 64 s.iss.clk ∧ s.sreg .spotcnt l = (s.quad q).work.cnt ∧
      (s.sreg .spotvar l).toNat = (s.quad q).work.var.toNat ∧ (s.sreg .spotnrm l).toNat = (s.quad q).work.nrm.toNat ∧
      field (s.sreg .faultseq l) 63 32 = (t l).trap.fseq.toNat ∧ field (s.sreg .faultseq l) 31 24 = (t l).trap.cause.toNat ∧
      field (s.sreg .faultseq l) 23 23 = bit (t l).trap.inTrap ∧
      (s.hbm.limit < 2 ^ 32 → field (s.sreg .caphbm l) 63 32 = s.hbm.limit ∧ field (s.sreg .caphbm l) 31 0 = s.hbm.units.toNat) ∧
      (s.cxl.limit < 2 ^ 32 → field (s.sreg .capcxl l) 63 32 = s.cxl.limit ∧ field (s.sreg .capcxl l) 31 0 = s.cxl.units.toNat) ∧
      let p : Dword := s.sreg .platphase l
      let code (x : Tier) : Nat := match x.st with
        | .idle => 0
        | .evacuating => 1
        | .moving => 2
      let top (x : Tier) : Nat := if x.st = .moving then x.swaths - 1 else 0
      field p 63 60 = 0 ∧ field p 59 58 = code s.cxl ∧ field p 57 50 = s.cxl.phase % 2 ^ 8 ∧ field p 49 29 = top s.cxl % 2 ^ 21 ∧
      field p 28 27 = code s.hbm ∧ field p 26 19 = s.hbm.phase % 2 ^ 8 ∧ field p 18 0 = top s.hbm % 2 ^ 19

/-- R227, R228, R346 and R349: `NOP` only goes on; `SRW` changes no register and seals; `CEDE.hold` and `CEDE.open` set and clear
`NOPRE`, but in the handler only seal; plain `CEDE` blocks for good, and with the last thread the warp is saved; outside the
pre-emption handler it traps. -/
def Obligations.SystemStrandInstructions : Prop :=
  ∀ (h : Hdr) (r : SReg) (b : Opd) (s : State),
    let g : Mask := s.on h.guard
    let e : State := s.strandEnd s.iss.mask
    let plain : Shape := Shape.sealing h.guard []
    let noPre (v : Bool) (u : State) : Prop :=
      u = if g = 0 ∨ s.iw.inPre = true then s else s.setIw { s.iw with nopre := v }
    let ceded (u : State) : Prop := e.Moved u (fun l => if hasLane s.iss.mask l then
        (if hasLane g l then (e.iw.thread l).block .ceded else (e.iw.thread l).sealAt s.iss.next)
      else e.iw.thread l)
    (s.operandsOk (Shape.plain h.guard) → ∃ t, exec (.nop h) s = .next t ∧
      s.Moved t (fun l => if hasLane s.iss.mask l then (s.iw.thread l).goto s.iss.next else s.iw.thread l)) ∧
    (s.iss.mask ≠ 0 → s.mayIssue (Shape.sealing h.guard [(b, 2)]) → ∃ t, exec (.srw h r b) s = .next t ∧ s.Sealed t) ∧
    (s.iss.mask ≠ 0 → s.mayIssue plain →
      (∃ t u, exec (.cedeHold h) s = .next t ∧ noPre true u ∧ u.Sealed t) ∧
      (∃ t u, exec (.cedeOpen h) s = .next t ∧ noPre false u ∧ u.Sealed t) ∧
      (g = 0 → ∃ t, exec (.cede h) s = .next t ∧ s.Sealed t) ∧
      (g ≠ 0 → s.iw.inPre = false → exec (.cede h) s = .next (s.take (Exc.of 0x27 g))) ∧
      (g ≠ 0 → s.iw.inPre = true → ∃ t u, exec (.cede h) s = .next t ∧ ceded u ∧
        ((∃ l, l < 32 ∧ hasLane u.iw.live l = true ∧ (u.iw.thread l).stat ≠ .ceded) → t = u) ∧
        ((∀ l, l < 32 → hasLane u.iw.live l = true → (u.iw.thread l).stat = .ceded) → t = u.saveWarp s.iss.gw false)))

/-- R347 and R348: in the pre-emption handler `SAVE`, issued by the whole warp, puts what it names into the parcel's image and seals:
hold registers of the live threads, a range of scratchpad, the committed accumulator, the parcel's tags. That the accumulator goes in as
committed before the strand that `SAVE.acc` seals is the model's choice (assumption 49). -/
def Obligations.SaveNamesState : Prop :=
  ∀ (h : Hdr) (a b : Opd) (s : State) (k : Nat),
    let u : State := s.wideStart
    let x : Nat := (u.handleOf h a).toNat
    let n : Nat := (u.handleOf h b).toNat
    let two : Shape := Shape.sealing h.guard [(a, 1), (b, 1)]
    let own (f : Parcel → Parcel) : State := u.modParcel s.iw.vdev s.iw.lseq s.iw.pseq f
    s.wholeWarp h.guard → s.iss.mask ≠ 0 → s.iw.inPre = true →
    (s.mayIssue two → n ≠ 0 → x + n ≤ s.iw.hc → n ≤ 256 → x + n ≤ 256 →
      ∃ t v, exec (.saveHold h a b) s = .next t ∧ v.Sealed t ∧ u.onlyWarp v ∧
        { v.iw with savHold := [] } = { u.iw with savHold := [] } ∧
        ∀ l r, l < 32 → r < 256 → NMap.get 0 v.iw.savHold (256 * l + r) =
          if hasLane s.iw.live l = true ∧ x ≤ r ∧ r < x + n then s.iw.getHold l r else NMap.get 0 s.iw.savHold (256 * l + r)) ∧
    (s.mayIssue two → x % 16 = 0 → n % 16 = 0 → u.scratch u.iw (coreOfQuad s.iss.quad) x n = some k →
      u.writesInto k n = false → s.badW = [] → s.lost = [] → s.badSec = [] →
      ∃ t, exec (.saveScr h a b) s = .next t ∧ (own (fun p => { p with imgScr := captureBytes s.mem p.imgScr k n })).Sealed t) ∧
    (s.mayIssue (Shape.sealing h.guard []) → s.isAccWarp s.iss.gw = true →
      ∃ t, exec (.saveAcc h) s = .next t ∧
        (own (fun p => { p with imgAcc := NMap.set Acc.init p.imgAcc s.iss.quad (s.committed s.iss.quad) })).Sealed t) ∧
    (s.mayIssue (Shape.sealing h.guard []) →
      ∃ t, exec (.saveTag h) s = .next t ∧ (own (u.captureTags (coreOfQuad s.iss.quad))).Sealed t)

/-- R413, R416, R418 and R421: `WATCH` writes a slot of the device's debug block from the operands of the lowest guard-true lane, and its
set stalls behind it until every die holds the slot; a bad slot, an empty range or a bad address traps. The slot keeps the 57 bits of a
negative address (assumption 32). `PROF` starts the quadrant's sampler, its header stored at its base, or stops it; a base that is not
aligned, a base out of range, a period or a capacity out of range, or a page that is not there traps, in this order; the stop stalls
while a write of its records is held or a sampled instruction is still in flight. -/
def Obligations.WatchSlotsAndSamplers : Prop :=
  (∀ (h : Hdr) (a b c : Opd) (s : State),
     let g : Mask := s.on h.guard
     let v : Nat := s.iw.vdev
     let op (o : Opd) (ty : Ty) : Dword := o.val s.iw s.iss h.lit (lowest g) ty
     let slot : Nat := (lo32 (op c .i32)).toNat
     let va : Dword := op a .i64
     let n : Nat := (lo32 (op b .i32)).toNat
     let set' (t : State) (d4 d5 : Dword) : Prop := ∃ fl,
       { t with warps := [], flights := [], nextId := 0, contracts := [] } =
         { s with warps := [], flights := [], nextId := 0, contracts := [] } ∧
       t.flights = s.flights ++ [fl] ∧ fl.id = s.nextId ∧ fl.kind = .watch ∧ fl.gw = s.iss.gw ∧ fl.writes = [] ∧
       t.nextId = s.nextId + 1 ∧ (∀ x, x ≠ v → t.contract x = s.contract x) ∧
       { t.contract v with debug := [] } = { s.contract v with debug := [] } ∧
       (∀ k, NMap.get 0 (t.contract v).debug k = if k = 4 + 2 * slot then d4 else if k = 5 + 2 * slot then d5
         else NMap.get 0 (s.contract v).debug k) ∧
       (∀ gw, gw ≠ s.iss.gw → t.warp gw = s.warp gw) ∧ { t.iw with threads := [] } = { s.iw with threads := [] } ∧
       ∀ l, t.iw.thread l = if hasLane s.iss.mask l then
         { (s.iw.thread l).goto s.iss.next with stat := .stalled s.nextId } else s.iw.thread l
     let range (kind : Nat) : Dword := BitVec.ofNat 64 (kind * 2 ^ 62 + va.toNat % 2 ^ 57)
     let fits : Prop := slot < 8 ∧ n ≠ 0 ∧ canonical va = true ∧ va.toNat % 2 ^ 57 + n ≤ 2 ^ 57
     let three : Shape := Shape.reading h.guard [(a, 2), (b, 1), (c, 1)]
     g ≠ 0 →
     (s.operandsOk three → fits →
       (∃ t, exec (.watchW h a b c) s = .next t ∧ set' t (range 2) (BitVec.ofNat 64 (n * 2 ^ 32))) ∧
       (∃ t, exec (.watchRw h a b c) s = .next t ∧ set' t (range 3) (BitVec.ofNat 64 (n * 2 ^ 32)))) ∧
     (s.operandsOk three → 8 ≤ slot ∨ n = 0 → exec (.watchW h a b c) s = .next (s.take (Exc.of 0x0D g)) ∧
       exec (.watchRw h a b c) s = .next (s.take (Exc.of 0x0D g))) ∧
     (s.operandsOk three → slot < 8 → n ≠ 0 → canonical va = false ∨ 2 ^ 57 < va.toNat % 2 ^ 57 + n →
       exec (.watchW h a b c) s = .next (s.take (Exc.of 0x0B g)) ∧ exec (.watchRw h a b c) s = .next (s.take (Exc.of 0x0B g))) ∧
     (s.operandsOk (Shape.reading h.guard [(c, 1)]) →
       (slot < 8 → ∃ t, exec (.watchOff h c) s = .next t ∧ set' t 0 0) ∧
       (8 ≤ slot → exec (.watchOff h c) s = .next (s.take (Exc.of 0x0D g))))) ∧
  (∀ (h : Hdr) (a b c : Opd) (s u : State),
     let g : Mask := s.on h.guard
     let op (o : Opd) (ty : Ty) : Dword := o.val s.iw s.iss h.lit (lowest g) ty
     let q : Nat := s.iss.quad
     let base : Dword := op a .i64
     let per : Nat := (lo32 (op b .i32)).toNat
     let cap : Nat := (lo32 (op c .i32)).toNat
     let smp (mode : Nat) : Sampler :=
       { mode := mode, vdev := s.iw.vdev, base := base, per := per, cap := cap, fill := 0, drop := 0, start := s.iss.clk, count := 0,
         next := 0 }
     let on' (l : Nat) : Thread := if hasLane s.iss.mask l then (s.iw.thread l).goto s.iss.next else s.iw.thread l
     let started (i : Instr) (mode least : Nat) : Prop := least ≤ per → per ≤ 2 ^ 24 → 1 ≤ cap → cap ≤ 65535 →
       s.feStore (dieOfQuad q) s.iw.vdev base (dwordBytes (smp mode).header) = (u, .ok ()) →
       ∃ t, exec i s = .next t ∧
         ((u.markSampler q s.nextId).setQuad q { s.quad q with sampler := smp mode, oldRuns := s.runsBefore q }).Moved t on'
     g ≠ 0 →
     (s.operandsOk (Shape.reading h.guard [(a, 2), (b, 1), (c, 1)]) → base.toNat % 64 = 0 → canonical base = true →
       started (.profStall h a b c) 1 16 ∧ started (.profMem h a b c) 2 1) ∧
     (s.operandsOk (Shape.reading h.guard [(a, 2), (b, 1), (c, 1)]) →
       let traps (i : Instr) (mode least : Nat) : Prop :=
         let bad : Prop := per < least ∨ 2 ^ 24 < per ∨ cap < 1 ∨ 65535 < cap
         (base.toNat % 64 ≠ 0 → exec i s = .next (s.take (Exc.of 0x0C g))) ∧
         (base.toNat % 64 = 0 → canonical base = false → exec i s = .next (s.take (Exc.of 0x0B g))) ∧
         (base.toNat % 64 = 0 → canonical base = true → bad → exec i s = .next (s.take (Exc.of 0x0D g))) ∧
         ∀ e, base.toNat % 64 = 0 → canonical base = true → ¬ bad →
           s.feStore (dieOfQuad q) s.iw.vdev base (dwordBytes (smp mode).header) = (u, .error e) →
           exec i s = .next (u.take { Exc.of e g with pages := [pageOf base.toNat] })
       traps (.profStall h a b c) 1 16 ∧ traps (.profMem h a b c) 2 1) ∧
     (s.operandsOk (Shape.plain h.guard) →
       let v : State := s.setQuad q { s.quad q with sampler := { (s.quad q).sampler with mode := 0 } }
       let open' : Prop := (∃ x ∈ s.held, x.smp = some q) ∨ ∃ f ∈ s.flights, f.iss.quad = q ∧ f.sample.isSome = true
       (¬ open' → ∃ t, exec (.profStop h) s = .next t ∧ v.Moved t on') ∧
       (open' → ∃ t fl, exec (.profStop h) s = .next t ∧
         { t with warps := [], flights := [], nextId := 0 } = { v with warps := [], flights := [], nextId := 0 } ∧
         t.flights = s.flights ++ [fl] ∧ fl.id = s.nextId ∧ fl.kind = .store ∧ fl.behind ≠ [] ∧ t.nextId = s.nextId + 1 ∧
         (∀ gw, gw ≠ s.iss.gw → t.warp gw = s.warp gw) ∧ { t.iw with threads := [] } = { s.iw with threads := [] } ∧
         ∀ l, t.iw.thread l = if hasLane s.iss.mask l then { (s.iw.thread l).goto s.iss.next with stat := .stalled s.nextId }
           else s.iw.thread l)))

/-! ### Closures, engines and handles (spec/12, spec/14) -/

/-- R297 to R304: the closure operations, performed at the closure's home for the guard-true lanes: `BINIT` writes the whole closure,
`BEXP` adds to `PEND`, `BARV` to `ARR`, each followed by R294; `BWAIT` blocks the lanes whose parity `PH` has; `BTEST` writes a
predicate; a closure with `V` = 0 or E = 0, and a descriptor of none for `BINIT`, trap. That the operation is performed in the step of
its issue is the model's choice (assumption 26). -/
def Obligations.ClosureOperations : Prop :=
  ∀ (h : Hdr) (x : Bool) (pd : BitVec 3) (a b c : Opd) (s : State) (k : Nat),
    let g : Mask := s.on h.guard
    let word (o : Opd) (l : Nat) : Word := lo32 (o.val s.iw s.iss h.lit l .i32)
    let at' : Nat := (word a (lowest g) + word b (lowest g)).toNat
    let n : Nat := (word c (lowest g)).toNat
    let d0 : Dword := BitVec.ofNat 64 (s.valueAt k 8)
    let d1 : Dword := BitVec.ofNat 64 (s.valueAt (k + 8) 8)
    let exp : Nat := field d0 63 48
    let pend : Nat := field d0 47 0
    let arr : Nat := field d1 15 0
    let dead : Prop := d1.getLsbD 23 = false ∨ exp = 0
    let odd (l : Nat) : Bool := (word c l).getLsbD 0
    let three : Shape := Shape.sealing h.guard [(a, 1), (b, 1), (c, 1)]
    let two : Shape := Shape.sealing h.guard [(a, 1), (b, 1)]
    let e : State := s.strandEnd s.iss.mask
    g ≠ 0 → s.tractKey x at' 16 = some k → at' % 16 = 0 → s.badW = [] →
    (∀ m o, s.tractPlace x at' = some (m, o) → (s.core m).survey = .none) →
    (s.mayIssue three → n % 65536 ≠ 0 → n / 65536 % 8 ≠ 7 → n < 2 ^ 19 →
      ∃ t u, exec (.binit h x a b c) s = .next t ∧
        s.StoredAt u k (leBytes 8 (n % 65536 * 2 ^ 48) ++ leBytes 8 (2 ^ 23 + n / 65536 * 2 ^ 20)) ∧ u.Sealed t) ∧
    (s.mayIssue three → ¬ dead →
      ∃ t u, exec (.bexp h x a b c) s = .next t ∧ s.Settles u k exp ((pend + n) % 2 ^ 48) d1 arr ∧ u.Sealed t) ∧
    (s.mayIssue two → ¬ dead → arr + laneCount g ≤ 65535 → s.fencePending .rel s.iss.gw g = false →
      (∀ y, s.launch? s.iw.vdev s.iw.lseq = some y → y.replay = false) →
      ∃ t u, exec (.barv h x a b) s = .next t ∧ s.Sealed u ∧ u.Settles t k exp pend d1 (arr + laneCount g)) ∧
    (s.mayIssue { three with blocks := true } → ¬ dead →
      ∃ t, exec (.bwait h x a b c) s = .next t ∧ e.Moved t (fun l => if hasLane s.iss.mask l then
          (if hasLane g l = true ∧ odd l = d1.getLsbD 16 then (e.iw.thread l).block (.bwait k s.iss.words)
            else (e.iw.thread l).sealAt s.iss.next)
        else e.iw.thread l)) ∧
    (s.operandsOk (Shape.reading h.guard [(a, 1), (b, 1), (c, 1)]) → ¬ dead →
      ∃ t, exec (.btest h x pd a b c) s = .next t ∧ s.onlyWarp t ∧ s.setGoesOn t ∧
        { t.iw with threads := [], pred := [] } = { s.iw with threads := [], pred := [] } ∧
        ∀ l p, l < 32 → t.iw.getPred l p =
          if p = pd.toNat ∧ p ≠ 7 ∧ hasLane g l = true then Bool.xor (d1.getLsbD 16) (odd l) else s.iw.getPred l p) ∧
    (
      let bad : Res := .next (s.take (Exc.of 0x26 g))
      (s.mayIssue three → n % 65536 = 0 ∨ n / 65536 % 8 = 7 ∨ 2 ^ 19 ≤ n → exec (.binit h x a b c) s = bad) ∧
      (dead → (s.mayIssue three → exec (.bexp h x a b c) s = bad) ∧
        (s.mayIssue two → s.fencePending .rel s.iss.gw g = false → exec (.barv h x a b) s = bad) ∧
        (s.mayIssue { three with blocks := true } → exec (.bwait h x a b c) s = bad) ∧
        (s.operandsOk (Shape.reading h.guard [(a, 1), (b, 1), (c, 1)]) → exec (.btest h x pd a b c) s = bad)) ∧
      (s.mayIssue two → ¬ dead → 65535 < arr + laneCount g → s.fencePending .rel s.iss.gw g = false → exec (.barv h x a b) s = bad))

/-- R305: `TRIG` marks the guard-true threads and seals; with no access of the warp on its way the marks take effect, and once every
thread of the parcel has triggered the parcel does. -/
def Obligations.TriggersMarkThreads : Prop :=
  ∀ (h : Hdr) (s : State),
    let g : Mask := s.on h.guard
    let mark (t : Thread) : Thread := { t with trigAt := some (t.trigAt.getD s.nextId) }
    let v : Nat := s.iw.vdev
    let n : Word := s.iw.lseq
    let k : Nat := s.iw.pseq
    s.iss.mask ≠ 0 → s.mayIssue (Shape.sealing h.guard []) →
    ∃ t u w, exec (.trig h) s = .next t ∧
      s.Moved u (fun l => if hasLane g l then mark (s.iw.thread l) else s.iw.thread l) ∧ u.Sealed w ∧
      ((∀ l, l < 32 → hasLane w.iw.live l = true → (w.iw.thread l).trigAt = none ∨ (w.iw.thread l).trig = true) → t = w) ∧
      ((∃ l, hasLane g l = true ∧ hasLane s.iw.live l = true ∧ (s.iw.thread l).trig = false) →
        (∀ f ∈ s.flights, f.gw ≠ s.iss.gw) → s.heldBy s.iss.gw = [] →
        s.iw.wide = false → (∀ y, s.launch? v n = some y → y.replay = false) →
        ∃ z, w.Moved z (fun l => if hasLane w.iw.live l = true ∧ (w.iw.thread l).trigAt.isSome = true then
            { w.iw.thread l with trig := true } else w.iw.thread l) ∧
          (z.allTriggered v n k = false → t = z) ∧
          (∀ y, z.allTriggered v n k = true → z.parcel? v n k = some y → y.state = .running → y.triggered = false →
            t.parcel? v n k = some { y with triggered := true } ∧ t.mem = z.mem ∧ t.warps = z.warps))

/-- R306 to R311: an engine instruction whose checks pass adds 1 to the warp's job counter, places one job with the captured record at
the end of the tract's queue, and seals; it waits while the queue holds 64 jobs; a stale handle traps. -/
def Obligations.EngineInstructionsQueueJobs : Prop :=
  ∀ (h : Hdr) (out x : Bool) (box : Option (BitVec 16 × BitVec 16)) (clo : Option Opd) (a b v : Opd) (r : DReg) (s : State),
    let g : Mask := s.on h.guard
    let l : Nat := lowest g
    let word (o : Opd) : Word := lo32 (o.val s.iw s.iss h.lit l .i32)
    let jobs : Nat := (s.jobs.filter (fun j => j.tract == s.iss.quad / 16)).length
    let req (k : JKind) (w : Option Opd) (bx : Option (Nat × Nat)) (d : Option DReg) : EngReq :=
      { kind := k, x := x, clo := clo, a := a, b := b, v := w, box := bx, reg := d }
    let queues (i : Instr) (q : EngReq) (more : Job → List Dword → List Dword → Prop) : Prop :=
      s.mayIssue (Shape.sealing h.guard q.srcs) →
      (g = 0 → s.iss.mask ≠ 0 → ∃ t, exec i s = .next t ∧ s.Sealed t) ∧
      (g ≠ 0 → s.live? s.iw.vdev (word b) = none → exec i s = .next (s.take (Exc.of 0x09 g))) ∧
      (g ≠ 0 → ∀ e ie k c, s.live? s.iw.vdev (word b) = some e →
        (match q.v with
          | some o => s.live? s.iw.vdev (word o) = some ie
          | none => ie = []) →
        q.badTensor e ie = false → (word a).toNat % 16 = 0 → s.engRegion x (word a).toNat (q.bytes e ie) = some k →
        (q.kind = .gath → (s.matRegion? ie 1 (entDim ie 0)).isSome = true) →
        (match clo with
          | some o => (word o).toNat % 16 = 0 ∧ ∃ m, s.engRegion x (word o).toNat 16 = some m ∧ c = some (m.2.1, m.2.2, m.1) ∧
              cloBad (s.cloD0 m.1) (s.cloD1 m.1) = false
          | none => c = none) →
        s.coordBeyond q e = false → s.coordStale q e l = false → s.coordsPending q e l = false →
        (64 ≤ jobs → ∃ t, exec i s = .next t ∧
          s.Moved t (fun l => if hasLane s.iss.mask l then { s.iw.thread l with stat := .stalled 0 } else s.iw.thread l)) ∧
        (jobs < 64 → ∃ (t u : State) (j : Job), exec i s = .next t ∧ u.Sealed t ∧
          { u with warps := [], jobs := [], nextId := 0 } = { s with warps := [], jobs := [], nextId := 0 } ∧
          u.jobs = s.jobs ++ [j] ∧ u.nextId = s.nextId + 1 ∧ u.iw = { s.iw with jobs := s.iw.jobs + 1 } ∧
          (∀ gw, gw ≠ s.iss.gw → u.warp gw = s.warp gw) ∧
          j.id = s.nextId ∧ j.tract = s.iss.quad / 16 ∧ j.kind = q.kind ∧ j.gw = s.iss.gw ∧ j.jseq = s.iw.jobs + 1 ∧
          j.vdev = s.iw.vdev ∧ j.lseq = s.iw.lseq ∧ j.pseq = s.iw.pseq ∧ j.handle = word b ∧ j.entry = e ∧ j.ientry = ie ∧
          (j.sKey, j.sCore, j.sOff) = k ∧ j.clo = c ∧ j.state = .queued ∧ j.next = 0 ∧ j.moved = 0 ∧ j.subbed = 0 ∧ more j e ie))
    let reg (k : Nat) : Int := (s.iw.readReg l r k).toInt
    let coord (e : List Dword) (k : Nat) : Int := match box with
      | some _ => if k < entRank e then reg k else 0
      | none => if k = 0 then 0 else if k < entRank e then reg (k - 1) else 0
    queues (.cpy h out box x clo a b r) (req (if out then .cpyOut else .cpyIn) none (box.map (fun p => (p.2.toNat, p.1.toNat))) (some r))
      (fun j e _ => j.c0 = coord e 0 ∧ (∀ k, k < 4 → j.cs.getD k 0 = coord e (k + 1)) ∧
        j.e0 = (match box with
          | some p => p.2.toNat
          | none => entDim e 0) ∧
        j.e1 = (match box with
          | some p => p.1.toNat
          | none => 1)) ∧
    queues (.gath h x clo a b v) (req .gath (some v) none none)
      (fun j _ ie => ∀ m, s.matRegion? ie 1 (entDim ie 0) = some m → j.ik = m.1 - (rcSpan ie 1 (entDim ie 0)).1) ∧
    queues (.coll h x clo a b) (req .coll none none none) (fun j _ _ => j.desc = s.dwords j.sKey 8)

/-- R240 to R243: `THSET` stores the descriptor with the slot's next generation and its valid bit, returns the handle when the entry is
in place, and seals, and with a uniform destination whose lowest thread is guard-false only seals (R51); `THDROP` clears the valid bit,
advances the generation and stalls until its answer; a stale handle traps. The entry's reserved bits become 0 (R236). That both change
the table at issue (assumption 26) and that `TTBASE` is an address of HBM4E (assumption 12) are the model's readings. -/
def Obligations.HandlesMadeAndDropped : Prop :=
  ∀ (h : Hdr) (d : Dst) (a b : Opd) (s : State),
    let g : Mask := s.on h.guard
    let gt : Mask := d.lanes s.iss.mask g
    let word (o : Opd) : Word := lo32 (o.val s.iw s.iss h.lit (lowest g) .i32)
    let place (slot : Nat) : Nat := ((s.contract s.iw.vdev).ttbase.toNat + 64 * slot)
    let next (gen : Nat) : Nat := if gen + 1 = 2 ^ 20 then 1 else gen + 1
    let stored (e : List Dword) (gen v : Nat) : List Byte :=
      dwordBytes (BitVec.ofNat 64 (gen * 2 ^ 44 + v * 2 ^ 43 + (e.getD 0 0).toNat % 2 ^ 43 / 2 ^ 23 * 2 ^ 23) :: e.drop 1)
    let slot : Nat := (word b).toNat
    let old : Nat := s.valueAt (place slot) 8 / 2 ^ 44
    let handle : Word := BitVec.ofNat 32 (next old * 2 ^ 12 + slot)
    let ws : List RegW := match d with
      | .reg (.uniform i) false => [.uni i.toNat handle]
      | .reg k false => ((laneList g).map (fun l => regWrites l k false (zx handle))).flatten
      | _ => []
    s.iss.mask ≠ 0 →
    (s.mayIssue { guard := h.guard, srcs := [(a, 1), (b, 1)], dsts := d.regs 1, strand := false, seals := true } →
      (gt = 0 → ∃ t, exec (.thset h d a b) s = .next t ∧ s.Sealed t) ∧
      (∀ k, gt ≠ 0 → (word a).toNat % 64 = 0 → s.scratch s.iw (s.iss.quad / 4) (word a).toNat 64 = some k → s.badW = [] →
        slot < 4096 → entOk (s.dwords k 8) = true →
        ∃ t u v fl, exec (.thset h d a b) s = .next t ∧ s.StoredAt u (place slot) (stored (s.dwords k 8) (next old) 1) ∧
          u.Launched v .thset g ws fl ∧ u.marksOnly v fl.writes ∧ v.Sealed t)) ∧
    (s.mayIssue (Shape.sealing h.guard [(a, 1)]) →
      let name : Nat := (word a).toNat
      let e : List Dword := s.dwords (place (name % 4096)) 8
      let gen : Nat := (e.getD 0 0).toNat / 2 ^ 44
      let live : Prop := (e.getD 0 0).getLsbD 43 = true ∧ gen ≠ 0 ∧ gen = name / 4096
      (g = 0 → ∃ t, exec (.thdrop h a) s = .next t ∧ s.Sealed t) ∧
      (g ≠ 0 → ¬ live → exec (.thdrop h a) s = .next (s.take (Exc.of 0x09 g))) ∧
      (g ≠ 0 → live → ∃ t u v fl, exec (.thdrop h a) s = .next t ∧
        s.StoredAt u (place (name % 4096)) (stored e (next gen) 0) ∧ u.Sealed v ∧ v.Launched t .thdrop s.iss.mask [] fl ∧
        { t.iw with threads := [] } = { v.iw with threads := [] } ∧ (∀ gw, gw ≠ s.iss.gw → t.warp gw = v.warp gw) ∧
        ∀ l, t.iw.thread l = if hasLane s.iss.mask l then { v.iw.thread l with stat := .stalled v.nextId } else v.iw.thread l))

/-! ### Matrix, tile and spot instructions (spec/12, spec/13) -/

/-- R257 to R261: `ACZ` clears the working image, `ACLD` brings a tile into it and `HAD` transforms it, each for the whole warp and for
the unit's time; the rest of the image stays; `HAD` waits, behind the requests issued before it, while the core's Hadamard unit is
taken (R176). That an FP32 tile keeps a NaN's bits, and that L of `ACLD.rns` and the exponent of `HAD` are those of the lowest thread,
are the model's choices (assumption 49). -/
def Obligations.AccumulatorClearedLoadedTransformed : Prop :=
  ∀ (h : Hdr) (f : Option Fmt) (col : Bool) (a b : Opd) (s : State),
    let w : State := s.wideStart
    let u : State := w.goWide []
    let acc : Acc := (s.quad s.iss.quad).work
    let word (o : Opd) : Word := s.handleOf h o
    let tile (e : List Dword) : Prop := s.live? s.iw.vdev (word a) = some e ∧
      (s.matRegion? e (entRows e) (entCols e)).isSome = true ∧ s.badW = []
    let time (e : List Dword) : Nat := max 16 ((entRows e * entCols e + 127) / 128)
    let inside (e : List Dword) (i j : Nat) : Prop := i < entRows e ∧ j < entCols e
    let value (fmt v : Nat) : Word := BitVec.ofNat 32 (match fmt with
      | 6 => v
      | 7 => fp32.round .rne (Fl.ofInt (BitVec.ofNat 32 v).toInt)
      | 5 => fp32.round .rne (fp16.decode v)
      | 4 => fp32.round .rne (bfp16.decode v)
      | 3 => fp32.round .rne (fpE5.decode v)
      | _ => fp32.round .rne (fpE4.decode v))
    let p (e : List Dword) : Nat := entHad e + 3
    let core : Nat := s.iss.quad / 4
    s.wholeWarp h.guard → s.isAccWarp s.iss.gw = true →
    (s.operandsOk (wideShape h.guard []) → ∃ t, exec (.acz h) s = .next t ∧
      u.TakesMatrixUnit t 16 { acc with el := [], res := [], l := 0, shM := 0, shN := 0, shG := 0 } none) ∧
    (s.operandsOk (wideShape h.guard [(a, 1)]) → ∀ e, tile e → tileOk e f = true → 2 ≤ entFmt e → entFmt e ≤ 7 →
      ∃ t x, exec (.acld h none f a) s = .next t ∧ u.TakesMatrixUnit t (time e) x none ∧ { x with el := [] } = { acc with el := [] } ∧
        ∀ i j, i < 128 → j < 128 → (inside e i j → x.elem i j = value (entFmt e) (s.elem e i j)) ∧
          (¬ inside e i j → x.elem i j = acc.elem i j)) ∧
    (s.operandsOk (wideShape h.guard [(a, 1), (b, 1)]) → ∀ e, tile e → tileOk e f = true → entFmt e = 7 → (word b).toNat ≤ 255 →
      let l : Nat := (word b).toNat
      ∃ t x, exec (.acld h (some b) f a) s = .next t ∧ u.TakesMatrixUnit t (time e) x none ∧
        x.el = acc.el ∧ x.cnt = acc.cnt ∧ x.var = acc.var ∧ x.nrm = acc.nrm ∧ x.l = l ∧
        (l ≠ 0 → x.shM = entRows e ∧ x.shN = entCols e ∧ x.shG = 0) ∧
        ∀ i j, i < 128 → j < 128 →
          (inside e i j → x.resOf i j = if l = 0 then 0 else (Res3.unpack (BitVec.ofNat 32 (s.elem e i j))).pack) ∧
          (¬ inside e i j → x.resOf i j = acc.resOf i j)) ∧
    (s.operandsOk (wideShape h.guard [(a, 1), (b, 1)]) → ∀ e, tile e → tileOk e none = true → entHad e ≠ 0 → acc.l = 0 →
      let taken : Prop := s.round < (s.core core).hadFree ∨ (s.core core).hadQ.headD s.iss.gw ≠ s.iss.gw
      (taken → ∃ t, exec (.had h col a b) s = .next t ∧
        (w.setCore core { s.core core with hadQ := joinQ (s.core core).hadQ s.iss.gw }).Moved t (fun l => if hasLane s.iss.mask l then { s.iw.thread l with stat := .stalled 0 } else s.iw.thread l)) ∧
      (¬ taken → ∃ t x, exec (.had h col a b) s = .next t ∧
        (u.setCore core { s.core core with hadFree := s.round + 128 * p e,
                                           hadQ := (s.core core).hadQ.filter (fun y => y != s.iss.gw) }).TakesMatrixUnit t (128 * p e) x none ∧
        { x with el := [] } = { acc with el := [] } ∧
        ∀ i j, i < 128 → j < 128 →
          let line (v : Nat) : List Word :=
            hadLine (p e) (word b).toInt ((List.range 128).map (fun k => if col then acc.elem k v else acc.elem v k))
          x.elem i j = if col then (line j).getD i 0 else (line i).getD j 0))

/-- R257, R260 and R262: `ACST` writes the region of the working image to scratchpad in the handle's format, or the residues, and `QNT`
its quantised elements with a scale byte for each unit; the image stays, and no other byte of memory changes. -/
def Obligations.AccumulatorStored : Prop :=
  ∀ (h : Hdr) (f : Option Fmt) (rm : Rnd) (given isB : Bool) (a : Opd) (s : State) (e : List Dword),
    let u : State := s.wideStart.goWide []
    let acc : Acc := (s.quad s.iss.quad).work
    let fmt : Nat := entFmt e
    let elemPlace (x : Nat) : Prop := ∃ i j, i < entRows e ∧ j < entCols e ∧
      (s.elemKey e i j).1 ≤ x ∧ x < (s.elemKey e i j).1 + entBytes e
    let time : Nat := max 16 ((entRows e * entCols e + 127) / 128)
    let code (x : Word) : Nat := match fmt with
      | 2 => FFmt.convert fp32 fpE4 rm x.toNat
      | 3 => FFmt.convert fp32 fpE5 rm x.toNat
      | 4 => FFmt.convert fp32 bfp16 rm x.toNat
      | 5 => FFmt.convert fp32 fp16 rm x.toNat
      | 7 => (BitVec.ofInt 32 (fpToInt rm (-(2 ^ 31)) (2 ^ 31 - 1) x.toNat)).toNat
      | _ => x.toNat
    let units : Nat := if isB then entCols e else entRows e
    let run (k : Nat) : List Word :=
      if isB then (List.range (entRows e)).map (fun i => acc.elem i k) else (List.range (entCols e)).map (fun j => acc.elem k j)
    let sh : Int := if fmt = 0 then 6 else 2
    let top : Int := if fmt = 0 then 127 else 7
    let chosen (xs : List Word) : Nat :=
      if xs.any (fun x => decide (0x7F800000 < x.toNat % 2 ^ 31)) = true then 0xFF
      else
        let m : Nat := xs.foldl (fun m x => max m (x.toNat % 2 ^ 31)) 0
        match fp32.decode m with
        | .fin _ 0 _ => 127
        | .fin _ c x => (max 0 (min 254 ((Nat.log2 c : Int) + x - sh + 127))).toNat
        | _ => 254
    let scale (k : Nat) : Nat := if given then s.scaleAt e k 0 else chosen (run k)
    let quant (sc : Nat) (x : Word) : Int :=
      if sc = 0xFF then 0
      else match Fl.scale (127 - (sc : Int)) (fp32.decode x.toNat) with
        | .fin n m k => max (-top - 1) (min top (roundToInt .rne n m k))
        | .inf n => if n then -top - 1 else top
        | .nan => 0
    let scaled : State := if given then u
      else (List.range units).foldl (fun v k => v.wr (s.scaleKey e k 0) 1 (scale k)) u
    s.wholeWarp h.guard → s.isAccWarp s.iss.gw = true → s.operandsOk (wideShape h.guard [(a, 1)]) →
    s.live? s.iw.vdev (s.handleOf h a) = some e → (s.matRegion? e (entRows e) (entCols e)).isSome = true → s.badW = [] →
    tileOk e f = true →
    (2 ≤ fmt → fmt ≤ 7 → ∃ t, exec (.acst h false rm f a) s = .next t ∧
      (u.putTile e (fun i j => code (acc.elem i j))).TakesMatrixUnit t time acc none ∧
      ∀ x, ¬ elemPlace x → t.byte x = s.byte x) ∧
    (fmt = 7 → ∃ t, exec (.acst h true rm f a) s = .next t ∧
      (u.putTile e (fun i j => if acc.l = 0 then 0 else (acc.resOf i j).toNat)).TakesMatrixUnit t time acc none ∧
      ∀ x, ¬ elemPlace x → t.byte x = s.byte x) ∧
    (fmt ≤ 1 → acc.l = 0 → (s.scaleRegion? e units 1).isSome = true →
      ∃ t, exec (.qnt h given isB f a) s = .next t ∧
        (scaled.putTile e (fun i j => (quant (scale (if isB then j else i)) (acc.elem i j) % 256).toNat)).TakesMatrixUnit t 128 acc none ∧
        ∀ x, ¬ elemPlace x → (given = true ∨ ∀ k, k < units → x ≠ s.scaleKey e k 0) → t.byte x = s.byte x)

/-- R247 to R256 and R263: `MMA` and `MMAG` check their operands in order, hold their read footprints and leave in the working image the
products of their rows and columns, for the unit's time, or stalled until the firmware is done for a pair that the part lacks; at a
gang form a member waits, and the last arrival starts all the members or traps them. -/
def Obligations.MatrixProducts : Prop :=
  ∀ (h : Hdr) (p : MatPair) (m n : Dim) (keep : Bool) (a b v : Opd) (s : State) (gathers : Bool),
    let w : State := s.wideStart
    let acc : Acc := (s.quad s.iss.quad).work
    let word (o : Opd) : Word := s.handleOf h o
    let ins (g : Gang) : Instr := if gathers then .mmag h p m n keep g a b v else .mma h p m n keep g a b
    let shape : Shape := wideShape h.guard (if gathers then [(a, 1), (b, 1), (v, 1)] else [(a, 1), (b, 1)])
    let names : List Word := if gathers then [word a, word b, word v] else [word a, word b]
    let mat (g : Nat) (ea eb ie : List Dword) : Mat :=
      { pair := p, m := dimN m, n := dimN n, keep := keep, gang := g, ea := ea, eb := eb, ie := if gathers then some ie else none }
    let live (ea eb ie : List Dword) : Prop := s.live? s.iw.vdev (word a) = some ea ∧ s.live? s.iw.vdev (word b) = some eb ∧
      (gathers = true → s.live? s.iw.vdev (word v) = some ie)
    let rate (q : MatPair) : Nat := match q with
      | .rq8 => 4096
      | .rq4 => 8192
      | .bf16 | .f16 => 1024
      | .f32 => 256
      | _ => 2048
    let ceil (x y : Nat) : Nat := (x + y - 1) / y
    let clocks (x : Mat) : Nat := max 16 (ceil (x.m * x.n * entCols x.ea) (rate x.pair)) +
      (if x.ie.isSome then ceil (x.m * entCols x.ea * entHalves x.ea) 2048 else 0)
    let absent (q : MatPair) : Prop := q = .e4e5 ∨ q = .e5e4
    let held (ps : List (Nat × Nat)) : List (Nat × Nat) := s.iw.foot ++ ps.filter (fun x => !(s.iw.foot.contains x))
    -- what the image `z` is after the instruction `x` on the rows `rows` of A, in the state `y`
    let product (y : State) (x : Mat) (rows : List Nat) (z : Acc) : Prop :=
      let was : Acc := (y.quad y.iss.quad).work
      let c0 : Nat := (gangOrigin y.iss.quad x.gang x.m x.n).2
      let rq : Prop := x.pair = .rq8 ∨ x.pair = .rq4
      let count : Nat := if was.l = 0 then x.k - (ceilDiv x.k 256 - 1) * 256 else was.l + x.k
      let stay : Bool := x.keep && decide (count < 256)
      { z with el := [], res := [], l := 0, shM := 0, shN := 0, shG := 0 } =
        { was with el := [], res := [], l := 0, shM := 0, shN := 0, shG := 0 } ∧
      (rq → z.l = (if stay then count else 0) ∧ (stay = true → z.shM = x.m ∧ z.shN = x.n ∧ z.shG = x.gang)) ∧
      (¬ rq → z.res = was.res ∧ z.l = was.l ∧ z.shM = was.shM ∧ z.shN = was.shN ∧ z.shG = was.shG) ∧
      ∀ i j, i < 128 → j < 128 →
        let r : Nat := rows.getD i 0
        let c : Nat := c0 + j
        let inside : Prop := i < x.m ∧ j < x.n
        (¬ inside → z.elem i j = was.elem i j ∧ z.resOf i j = was.resOf i j) ∧
        (inside → rq → (z.elem i j, z.resOf i j) = rqElem was.l x.k stay (fun k => rqValue (entFmt x.ea) (y.elem x.ea r k))
          (fun k => rqValue (entFmt x.eb) (y.elem x.eb k c)) (fun d => y.scaleAt x.ea r d) (fun d => y.scaleAt x.eb c d)
          (was.elem i j) (was.resOf i j)) ∧
        (inside → ¬ rq → z.elem i j = floatElem (if x.pair = .f32 then 4 else 16) x.k
          (fun k => fmtValue (entFmt x.ea) (y.elem x.ea r k)) (fun k => fmtValue (entFmt x.eb) (y.elem x.eb k c)) (was.elem i j))
    s.wholeWarp h.guard → s.isAccWarp s.iss.gw = true → s.operandsOk shape →
    (s.entries? names = none → exec (ins .quad) s = .next (w.take (Exc.of 0x09 s.iss.mask))) ∧
    (∀ ea eb ie, live ea eb ie →
      ((mat 0 ea eb ie).bad acc = true → exec (ins .quad) s = .next (w.take (Exc.of 0x24 s.iss.mask))) ∧
      ((mat 0 ea eb ie).bad acc = false → s.matFoot (mat 0 ea eb ie) = none →
        exec (ins .quad) s = .next (w.take (Exc.of 0x0D s.iss.mask))) ∧
      (∀ foot, (mat 0 ea eb ie).bad acc = false → s.matFoot (mat 0 ea eb ie) = some foot → s.badW = [] →
        let x : Mat := mat 0 ea eb ie
        let rows : List Nat := (List.range x.m).map (fun i => if gathers then s.elem ie 0 i else i)
        let u : State := w.goWide foot
        (gathers = true → (∃ r ∈ rows, entRows ea ≤ r) → exec (ins .quad) s = .next (w.take (Exc.of 0x0B s.iss.mask))) ∧
        ((gathers = true → ∀ r ∈ rows, r < entRows ea) → ¬ absent p →
          ∃ t z, exec (ins .quad) s = .next t ∧ product s x rows z ∧ u.TakesMatrixUnit t (clocks x) z none) ∧
        ((gathers = true → ∀ r ∈ rows, r < entRows ea) → absent p →
          ∃ (t y : State) (z : Acc) (fl : Flight), exec (ins .quad) s = .next t ∧ product s x rows z ∧ y.Launched t .emulate s.iss.mask [] fl ∧
            y = u.setQuad s.iss.quad { u.quad s.iss.quad with work := z } ∧ { t.iw with threads := [] } = { u.iw with threads := [] } ∧
            ∀ l, t.iw.thread l = if hasLane s.iss.mask l then { u.iw.thread l with stat := .stalled u.nextId } else u.iw.thread l)) ∧
      (∀ (g : Gang) (grp : Nat) (foot : List (Nat × Nat)), g ≠ .quad → (mat (gangCode g) ea eb ie).bad acc = false →
        s.gangGroup (gangCode g) (gangSlot g) = .ok grp → s.matFoot (mat (gangCode g) ea eb ie) = some foot →
        let x : Mat := mat (gangCode g) ea eb ie
        let rows : List Nat := s.matRows x
        (gathers = true → ∀ r ∈ rows, r < entRows ea) →
        let key : List Nat := [0, (pairFmts p).1, (pairFmts p).2, x.m, x.n, b2n keep, x.gang] ++ names.map (·.toNat)
        let wait : GangWait :=
          { iss := s.iss, ins := ins g, group := grp, key := key, ents := if gathers then [ea, eb, ie] else [ea, eb], vals := rows }
        let z : State := (w.goWide foot).gangWait wait
        let mine : List Nat := (List.range 4).filterMap s.iw.group?
        let others : List Nat := (s.members s.iw grp).filter (fun y => y != s.iss.gw)
        ((∀ k ∈ mine, ∃ y ∈ s.members s.iw k, y ≠ s.iss.gw ∧ s.gangAt y = none) →
          ∃ t, exec (ins g) s = .next t ∧ s.onlyWarp t ∧ t.iw.gang = some wait ∧ t.iw.foot = held foot ∧ t.iw.wide = true ∧
            ∀ l, t.iw.thread l = if hasLane s.iss.mask l then { s.iw.thread l with stat := .gang } else s.iw.thread l) ∧
        (mine = [grp] → s.iss.gw ∈ s.resident → s.iw.inGroup grp = true →
          (∀ y ∈ others, ∃ q, s.gangAt y = some q ∧ q.group = grp ∧ q.key = key) →
          exec (ins g) s = .next { z.matGang (s.members s.iw grp) with iss := s.iss }) ∧
        (mine = [grp] → s.iss.gw ∈ s.resident → s.iw.inGroup grp = true → (∀ y ∈ others, (s.gangAt y).isSome = true) →
          (∃ y ∈ others, ∃ q, s.gangAt y = some q ∧ (q.group ≠ grp ∨ q.key ≠ key)) →
          exec (ins g) s = .next { z.gangTrap (s.members s.iw grp) with iss := s.iss })) ∧
      (∀ (y : State) (q : GangWait) (x : Mat) (foot : List (Nat × Nat)), q.mat = some x → y.matFoot x = some foot → y.badW = [] →
        ¬ absent x.pair → ∃ z, product y x q.vals z ∧ y.TakesMatrixUnit (y.matMember q) (clocks x) z none))

/-- R266 to R283: `SNORM` writes the norms of a matrix's lines, `SALIAS` an alias table, `SPOT` a sampled product with its run registers,
which `SSTAT` reads two clocks after the run; each takes the unit for its time, and `SALIAS` waits for the core's unit, behind the
requests issued before it (R176). -/
def Obligations.SpotInstructions : Prop :=
  ∀ (h : Hdr) (isB : Bool) (toff : BitVec 23) (m n : Dim) (bat : Batch) (a b : Opd) (c : SpotGroup) (d : StatGroup) (s : State)
    (ea eb : List Dword),
    let w : State := s.wideStart
    let acc : Acc := (s.quad s.iss.quad).work
    let core : Nat := s.iss.quad / 4
    let clk : Nat := s.iss.clk
    let live : Prop := s.live? s.iw.vdev (s.handleOf h a) = some ea ∧ s.live? s.iw.vdev (s.handleOf h b) = some eb
    let g : Guard := h.guard
    let pair : Shape := wideShape g [(a, 1), (b, 1)]
    let whole (e : List Dword) : List (Nat × Nat) := s.matPieces e (entRows e) (entCols e)
    let held (ps : List (Nat × Nat)) : List (Nat × Nat) := s.iw.foot ++ ps.filter (fun x => !(s.iw.foot.contains x))
    s.wholeWarp g → s.isAccWarp s.iss.gw = true →
    -- SNORM
    (s.operandsOk pair → live → s.badW = [] →
      let k : Nat := if isB then entRows eb else entCols eb
      let line (i : Nat) : List Word := if isB then (List.range (entCols eb)).map (fun j => s.elemF32 eb i j)
        else (List.range (entRows eb)).map (fun j => s.elemF32 eb j i)
      let norm (i : Nat) : Word := sqrtRn ((line i).foldl (fun sum x => fmaRn x x sum) 0)
      spotBadMat eb = false → spotBadVec ea = false → entDim ea 0 = k → (s.matRegion? eb (entRows eb) (entCols eb)).isSome = true →
        (s.matRegion? ea 1 k).isSome = true →
        ∃ t, exec (.snorm h isB a b) s = .next t ∧
          ((List.range k).foldl (fun (v : State) i => v.setElem ea 0 i (norm i).toNat) (w.goWide (whole eb))).TakesMatrixUnit t
            (max 16 ((entRows eb * entCols eb + 127) / 128)) acc none ∧
          ∀ x, (∀ i, i < k → ¬ ((s.elemKey ea 0 i).1 ≤ x ∧ x < (s.elemKey ea 0 i).1 + 4)) → t.byte x = s.byte x) ∧
    -- SALIAS
    (h = { guard := g, long := true, lit := 0 } → s.operandsOk pair → live → s.badW = [] →
      let k : Nat := entDim ea 0
      let qs : List Word := List.zipWith mulRn (s.vec ea) (s.vec eb)
      let z : Word := qs.foldl addRn 0
      let taken : Prop := s.round < (s.core core).aliasFree ∨ (s.core core).aliasQ.headD s.iss.gw ≠ s.iss.gw
      ∀ key, toff.toNat % 16 = 0 → spotBadVec ea = false → spotBadVec eb = false → entDim eb 0 = k → 1 ≤ k → k ≤ 65536 →
        s.scratch s.iw core toff.toNat (16 + 16 * k) = some key → (s.matRegion? ea 1 k).isSome = true → (s.matRegion? eb 1 k).isSome = true →
        (taken → ∃ t, exec (.salias g toff a b) s = .next t ∧
          (w.setCore core { s.core core with aliasQ := joinQ (s.core core).aliasQ s.iss.gw }).Moved t (fun l => if hasLane s.iss.mask l then { s.iw.thread l with stat := .stalled 0 } else s.iw.thread l)) ∧
        (¬ taken → ∃ t, exec (.salias g toff a b) s = .next t ∧
          (((w.goWide (s.matPieces ea 1 k ++ s.matPieces eb 1 k)).putAlias key (s.vec ea) (s.vec eb)).setCore core
            { s.core core with aliasFree := s.round + (2 * k + 32),
                               aliasQ := (s.core core).aliasQ.filter (fun y => y != s.iss.gw) }).TakesMatrixUnit t (2 * k + 32) acc none ∧
          t.valueAt key 8 = z.toNat * 2 ^ 32 + aliasStat qs z * 2 ^ 24 + k ∧
          ∀ x, ¬ (key ≤ x ∧ x < key + 16 + 16 * k) → t.byte x = s.byte x)) ∧
    -- SPOT
    (h = { guard := g, long := true, lit := 0 } → s.operandsOk (wideShape g [(a, 1), (b, 1), (spotGroupOpd c, 4)]) → live → s.badW = [] →
      let p : SpotPar := s.spotPar c
      ∀ key, toff.toNat % 16 = 0 → s.scratch s.iw core toff.toNat 16 = some key →
        let d0 : Dword := BitVec.ofNat 64 (s.valueAt key 8)
        let d1 : Dword := BitVec.ofNat 64 (s.valueAt (key + 8) 8)
        let k : Nat := field d0 16 0
        let u : State := w.goWide (whole ea ++ whole eb ++ [(key, key + 16 + 16 * k)])
        let me : SpotMem := u.spotMem key (field d0 25 24) ea eb 0 (dimN m) (dimN n)
        let r : SpotOut := if field d0 25 24 = 0 then spotRun u (dimN m) (dimN n) (batN bat) p.smax p.seed p.tau d0 [me]
          else spotIdle (dimN m) (dimN n) me
        let rows : List (List Word) := (r.ms.getD 0 me).rows
        (s.scratch s.iw core (toff.toNat + 16) (16 * k)).isSome = true →
        spotBad acc ea eb d0 d1 (dimN m) (dimN n) 1 p.smax = false →
        (s.matRegion? ea (entRows ea) (entCols ea)).isSome = true → (s.matRegion? eb (entRows eb) (entCols eb)).isSome = true →
        ∃ t x, exec (.spot g toff m n bat .quad a b c) s = .next t ∧
          u.TakesMatrixUnit t (16 + r.cnt * max 4 (ceilDiv (dimN m * dimN n) 1024) + r.nb * (ceilDiv (dimN m * dimN n) 1024 + 8) +
            ceilDiv (dimN m * dimN n) 1024) x (some (BitVec.ofNat 64 (r.why * 2 ^ 32 + r.cnt), r.var, r.nrm)) ∧
          { x with el := [] } = { acc with el := [] } ∧
          ∀ i j, i < 128 → j < 128 → x.elem i j =
            if i < dimN m ∧ j < dimN n then (rows.getD i []).getD j 0 else acc.elem i j) ∧
    -- SPOT in a gang: the member waits, and the last arrival starts the run of all
    (h = { guard := g, long := true, lit := 0 } → s.operandsOk (wideShape g [(a, 1), (b, 1), (spotGroupOpd c, 4)]) → live → s.badW = [] →
      let p : SpotPar := s.spotPar c
      ∀ (gang : Gang) (grp key : Nat), gang ≠ .quad → toff.toNat % 16 = 0 →
        s.scratch s.iw core toff.toNat 16 = some key → s.gangGroup (gangCode gang) (gangSlot gang) = .ok grp →
        let d0 : Dword := BitVec.ofNat 64 (s.valueAt key 8)
        let d1 : Dword := BitVec.ofNat 64 (s.valueAt (key + 8) 8)
        let k : Nat := field d0 16 0
        let foot : List (Nat × Nat) := whole ea ++ whole eb ++ [(key, key + 16 + 16 * k)]
        let wait : GangWait :=
          { iss := s.iss, ins := .spot g toff m n bat gang a b c, group := grp,
            key := [1, toff.toNat, dimN m, dimN n, batN bat, gangCode gang, p.seed.toNat, p.smax, p.tau.toNat, field d0 63 32, k,
              gangSlot gang, (s.handleOf h a).toNat, (s.handleOf h b).toNat],
            ents := [ea, eb], vals := [p.seed.toNat, p.smax, p.tau.toNat, d0.toNat] }
        let z : State := (w.goWide foot).gangWait wait
        let mine : List Nat := (List.range 4).filterMap s.iw.group?
        (s.scratch s.iw core (toff.toNat + 16) (16 * k)).isSome = true →
        spotBad acc ea eb d0 d1 (dimN m) (dimN n) (gangSide (gangCode gang)) p.smax = false →
        (s.matRegion? ea (entRows ea) (entCols ea)).isSome = true → (s.matRegion? eb (entRows eb) (entCols eb)).isSome = true →
        ((∀ k ∈ mine, ∃ y ∈ s.members s.iw k, y ≠ s.iss.gw ∧ s.gangAt y = none) →
          ∃ t, exec (.spot g toff m n bat gang a b c) s = .next t ∧ s.onlyWarp t ∧ t.iw.gang = some wait ∧
            t.iw.foot = held foot ∧ t.iw.wide = true ∧
            ∀ l, t.iw.thread l = if hasLane s.iss.mask l then { s.iw.thread l with stat := .gang } else s.iw.thread l) ∧
        (mine = [grp] → s.iss.gw ∈ s.resident → s.iw.inGroup grp = true →
          (∀ y ∈ s.members s.iw grp, y ≠ s.iss.gw → ∃ q, s.gangAt y = some q ∧ q.group = grp ∧ q.key = wait.key) →
          exec (.spot g toff m n bat gang a b c) s = .next { z.spotGang (s.members s.iw grp) with iss := s.iss })) ∧
    -- SSTAT
    (s.operandsOk { guard := g, srcs := [], dsts := [(statReg d, 4)], strand := false, seals := false } →
      let unit : List Flight := s.flights.filter (fun f => f.kind == .matrix && f.iss.quad == s.iss.quad)
      let fin : Nat := unit.foldl (fun z f => max z f.due) clk
      let run : Dword × Word × Word := (unit.filterMap (·.spot)).getLast?.getD (acc.cnt, acc.var, acc.nrm)
      let vals (k : Nat) : Word := [lo32 run.1, run.2.1, run.2.2, BitVec.ofNat 32 (field run.1 33 32)].getD k 0
      let ws : List RegW := match d with
        | .hold i => ((laneList s.iss.mask).map (fun l => (List.range 4).map (fun k => .hold (256 * l + (4 * i.toNat + k)) (vals k)))).flatten
        | .near i => ((laneList s.iss.mask).map (fun l => (List.range 4).map (fun k => .near (16 * l + (4 * i.toNat + k)) (vals k)))).flatten
        | .uniform i => (List.range 4).map (fun k => .uni (4 * i.toNat + k) (vals k))
      let u : State := w.goWide []
      ∃ t fl, exec (.sstat h d) s = .next t ∧ u.Launched t .matrix s.iss.mask ws fl ∧ fl.due = fin + 2 ∧ fl.exact = true ∧
        u.warpGoesOn t fl.writes)

/-! ### Events -/

/-- R97, R186, R197, R200, R204, R242, R243, R245, R255, R263, R281, R297 and R416: an operation in flight ends no earlier than its
clock, and a load, an atomic or a store not while a held write or a swath stands before it: its register writes are made in their
order, it is gone, and the threads that it stalled go on; a read that met a bad word ends in a kill; before that, and without the
operation, no such event takes place and nothing changes (assumption 14). -/
def Obligations.OperationsInFlightEnd : Prop :=
  ∀ (id : Nat) (s : State),
    let event (k : FKind) : Instr := match k with
      | .sfu => .sfuResult id
      | .load => .loadResult id
      | .atomic => .atomicResult id
      | .tagq => .tagqResult id
      | .matrix => .matrixUnitDone id
      | .thset => .thsetComplete id
      | .emulate => .emulationDone id
      | .closure => .closureOperationPerformed id
      | .store => .storePerformed id
      | .thdrop => .thdropAnswer id
      | .watch => .watchSlotInstalled id
    (∀ k, s.flights.find? (fun x => x.id == id && x.kind == k) = none → exec (event k) s = .next s) ∧
    ∀ f : Flight,
      let here (k : FKind) : Prop := s.flights.find? (fun x => x.id == id && x.kind == k) = some f
      let ripe : Prop := f.due ≤ (s.quad f.iss.quad).clock
      let clear : Prop := (∀ i ∈ f.behind, (∀ h ∈ s.held, h.id ≠ i) ∧ ∀ g ∈ s.flights, g.id ≠ i) ∧
        ∀ x ∈ f.swaths, x.2 ∉ (s.tier x.1).inFlight
      let last (old : Word) (k : Nat) (pick : RegW → Option (Nat × Word)) : Word :=
        (((f.writes.filterMap pick).filter (fun x => x.1 == k)).getLast?.map (·.2)).getD old
      let gone (y u : State) : Prop :=
        { u with warps := [], flights := [], runs := [] } = { y with warps := [], flights := [], runs := [] } ∧
        u.flights = y.flights.filter (fun x => x.id != id) ∧ (∀ g, g ≠ f.gw → u.warp g = y.warp g)
      let written (y u : State) (wakes : Bool) : Prop :=
        gone y u ∧ (y.runs.find? (fun r => r.1 == f.gw) = none → u.runs = y.runs) ∧
        { u.warp f.gw with threads := [], hold := [], near := [], uni := [] } =
          { y.warp f.gw with threads := [], hold := [], near := [], uni := [] } ∧
        (∀ k, NMap.get 0 (u.warp f.gw).hold k = last (NMap.get 0 (y.warp f.gw).hold k) k (fun x => match x with
          | .hold j v => some (j, v)
          | _ => none)) ∧
        (∀ k, NMap.get 0 (u.warp f.gw).near k = last (NMap.get 0 (y.warp f.gw).near k) k (fun x => match x with
          | .near j v => some (j, v)
          | _ => none)) ∧
        (∀ k, (u.warp f.gw).getUni k = last ((y.warp f.gw).getUni k) k (fun x => match x with
          | .uni j v => some (j, v)
          | _ => none)) ∧
        ∀ l, (u.warp f.gw).thread l =
          if wakes = true ∧ hasLane (y.warp f.gw).live l = true ∧ ((y.warp f.gw).thread l).stat = .stalled id then
            { (y.warp f.gw).thread l with stat := .ready } else (y.warp f.gw).thread l
      let ends (y t : State) : Prop := ∃ u, written y u true ∧
        t = (match f.sample with
          | some x => ((u.settleTrigs f.gw).writeSample f.iss.quad f.iss.slot x).passBehind id u.nextId
          | none => u.settleTrigs f.gw) ∧
        (f.sample = none → (∀ l, l < 32 → hasLane (u.warp f.gw).live l = true → ((u.warp f.gw).thread l).trigAt = none) → t = u)
      let ending (k : FKind) : Prop := ∃ t, exec (event k) s = .next t ∧ ends s t
      (here .sfu → (ripe → ∃ t, exec (event .sfu) s = .next t ∧ written s t false) ∧
        (¬ ripe → exec (event .sfu) s = .next s)) ∧
      (here .load → ripe → clear → (f.kill = 0 → (∀ x ∈ f.sects, x ∉ s.lost) → ending .load) ∧
        (f.kill ≠ 0 → exec (event .load) s = .next (s.killFlight f f.kill)) ∧
        (f.kill = 0 → (∃ x ∈ f.sects, x ∈ s.lost) → exec (event .load) s = .next (s.killFlight f 0x12))) ∧
      (here .atomic → ripe → clear → (f.kill = 0 → ending .atomic) ∧
        (f.kill ≠ 0 → exec (event .atomic) s = .next (s.killFlight f f.kill))) ∧
      (here .store → ripe → clear → ending .store) ∧
      (here .load ∨ here .atomic ∨ here .store → ¬ (ripe ∧ clear) → exec (event f.kind) s = .next s) ∧
      (here .tagq ∨ here .matrix → ¬ ripe → exec (event f.kind) s = .next s) ∧
      (here .tagq → ripe → ending .tagq) ∧ (here .thset → ending .thset) ∧ (here .thdrop → ending .thdrop) ∧
      (here .watch → ending .watch) ∧
      (here .matrix → ripe → f.spot = none → ending .matrix) ∧
      (here .matrix → ripe → ∀ cnt var nrm, f.spot = some (cnt, var, nrm) →
        let q : Nat := f.iss.quad
        let put (a : Acc) : Acc := { a with cnt := cnt, var := var, nrm := nrm }
        ∃ t, exec (event .matrix) s = .next t ∧
          ends (s.setQuad q { s.quad q with
            work := put (s.quad q).work, commit := if f.sealed then put (s.quad q).commit else (s.quad q).commit }) t) ∧
      (here .emulate → ∃ t, exec (event .emulate) s = .next t ∧ gone s t ∧ t.runs = s.runs ∧
        { t.warp f.gw with threads := [] } = { s.warp f.gw with threads := [] } ∧
        ∀ l, (t.warp f.gw).thread l =
          if hasLane (s.warp f.gw).live l = true ∧ ((s.warp f.gw).thread l).stat = .stalled id then
            ((s.warp f.gw).thread l).goto f.iss.next else (s.warp f.gw).thread l) ∧
      (here .closure → ∀ r, f.clo = some r →
        let shut : Prop := ∃ c o, ({ s with iss := f.iss } : State).tractPlace r.x r.t = some (c, o) ∧ (s.core c).survey ≠ .none
        (shut → exec (event .closure) s = .next s) ∧
        (¬ shut → exec (event .closure) s =
          .next { (({ s with iss := f.iss } : State).dropFlight id).cloPerform r with iss := s.iss }))

/-- R31, R48, R141, R165 to R169, R177, R216 to R219, R385 to R387 and R418: a fetch brings its line into the core's cache, where at most
one line of its index goes for it, or stops the set; a walk enters its leaf; warps enter empty window positions, or exchange places
unless a thread of the outgoing one wakes; a run-ahead instruction changes nothing but the
run-ahead's own record, and one that seals ends it; a stall sample is recorded. That the walk's event enters the leaf (assumption 36),
that a line of the same low six bits goes (assumption 55), that an exchange is decided in the clock that has passed (assumption 25), and
that a sample names what its clock found before the issue (assumption 44), are the model's choices. -/
def Obligations.FetchWindowAndRunAhead : Prop :=
  (∀ (q slot : Nat) (m : Mask) (pc va : Dword) (n : Nat) (s u : State),
    let core : Nat := q / 4
    let v : Nat := (s.warp (16 * q + slot)).vdev
    let line : Dword := BitVec.ofNat 64 (va.toNat - va.toNat % 128)
    (s.quad q).fetch = some (slot, m, pc) → s.fetch core v pc = .miss va n →
    (∀ k b, s.translate (q / 192) v line false true = (u, .ok k b) → u.clear →
      let key : Nat := v * 2 ^ 50 + field va 56 7
      let banks : Nat × Nat := u.setOf core (q % 4)
      let out : Option Nat := (u.core core).victim key banks.1 (banks.2 / 8)
      ∃ t, exec (.fetchReturn q) s = .next t ∧ { t with cores := [] } = { u with cores := [] } ∧ (∀ c, c ≠ core → t.core c = u.core c) ∧
        { t.core core with icache := [], icOrder := [] } = { u.core core with icache := [], icOrder := [] } ∧
        NMap.get [] (t.core core).icache key = (List.range 32).map (fun i => BitVec.ofNat 32 (u.valueAt (k + 4 * i) 4)) ∧
        (∀ j, out = some j → j ≠ key ∧ j % 64 = key % 64 ∧ NMap.get [] (t.core core).icache j = []) ∧
        ∀ j, j ≠ key → out ≠ some j → NMap.get [] (t.core core).icache j = NMap.get [] (u.core core).icache j) ∧
    (∀ c, s.translate (q / 192) v line false true = (u, .fault c) →
      exec (.fetchReturn q) s = .next (({ u.setQuad q { u.quad q with fetch := none } with
          iss := { quad := q, slot := slot, mask := m, pc := pc, words := n, clk := (u.quad q).clock } } : State).take
        { Exc.of c m with pages := if c = 0x10 ∨ c = 0x11 then [canon (BitVec.ofNat 64 (va.toNat - va.toNat % 65536))] else [] }))) ∧
  (∀ (die v : Nat) (va : Dword) (s : State),
    (∀ x, s.tlb? die v va = some x → exec (.translationWalkDone die v va) s = .next s) ∧
    (s.tlb? die v va = none → ∀ x, s.invalAt v va = some x → exec (.translationWalkDone die v va) s = .next s) ∧
    (s.tlb? die v va = none → s.invalAt v va = none →
      (∀ e big at', s.walk v va = .ok (e, big, at') → ∃ t x, exec (.translationWalkDone die v va) s = .next t ∧
        { t with tlbs := [] } = { s with tlbs := [] } ∧ t.tlb? die v va = some x ∧ x.pte = e ∧ x.big = big) ∧
      (∀ c, s.walk v va = .error c → exec (.translationWalkDone die v va) s = .next s))) ∧
  (∀ (q : Nat) (s : State),
    let x : Quad := s.quad q
    let ins : List Nat := s.incoming q
    let moving : Prop := ∃ o i d, .exch o i d ∈ x.win
    let enters (t : State) (k : Nat) : Prop :=
      (∀ r, r < 16 → (t.warp (16 * q + k)).nearWritten r = 0) ∧ (∀ j, j < 4 → (t.warp (16 * q + k)).latchValid j = 0) ∧
      { t.warp (16 * q + k) with threads := [], nearW := [], latchV := [], last := none, enteredAt := 0 } =
        { s.warp (16 * q + k) with threads := [], nearW := [], latchV := [], last := none, enteredAt := 0 } ∧
      (∀ l, (t.warp (16 * q + k)).thread l =
        let old : Thread := (s.warp (16 * q + k)).thread l
        let again : Bool := match old.stat with
          | .waitj _ _ | .sleepj _ _ | .bwait _ _ => hasLane (s.warp (16 * q + k)).live l
          | _ => false
        if again then { old with stat := .ready } else old) ∧
      (t.warp (16 * q + k)).last = none ∧ (t.warp (16 * q + k)).enteredAt = x.clock
    let others (t : State) (ks : List Nat) : Prop := (∀ gw, (∀ k ∈ ks, gw ≠ 16 * q + k) → t.warp gw = s.warp gw) ∧
      (∀ p, p ≠ q → t.quad p = s.quad p) ∧ { t with warps := [], quads := [] } = { s with warps := [], quads := [] }
    (moving ∨ .empty ∉ x.win ∨ ins = [] → exec (.windowFill q) s = .next s) ∧
    (¬ moving → .empty ∈ x.win → ins ≠ [] → ∃ t, exec (.windowFill q) s = .next t ∧
      t.quad q = { x with win := (fillWin x.win ins).1, outSnap := none } ∧ (∀ k ∈ (fillWin x.win ins).2, enters t k) ∧ others t (fillWin x.win ins).2) ∧
    (∀ o i m, ¬ moving → (.empty ∉ x.win ∨ ins = []) → x.outSnap = some (o, m) → ins.head? = some i → x.active.contains o = true →
      let ready : Mask := (s.warp (16 * q + o)).readyLanes
      (ready &&& ~~~ m ≠ 0 → exec (.windowExchange q) s = .next s) ∧
      (ready &&& ~~~ m = 0 → s.runs.find? (fun r => r.1 == 16 * q + o) = none → (s.warp (16 * q + o)).allAtBoundary = true →
        ∃ t, exec (.windowExchange q) s = .next t ∧ others t [o] ∧
          t.quad q = { x with
            win := x.win.map (fun p => if p = .warp o then .exch o (some i) (x.clock - 1 + 4) else p), outSnap := none } ∧
          t.warp (16 * q + o) = { s.warp (16 * q + o) with leftAt := some (x.clock - 1) })) ∧
    (moving ∨ x.outSnap = none ∨ ins = [] → exec (.windowExchange q) s = .next s) ∧
    (∀ o i, x.dueExchange = some (o, some i) → ∃ t, exec (.windowExchangeDone q) s = .next t ∧ others t [i] ∧ enters t i ∧
      { t.quad q with win := [] } = { x with win := [] } ∧ .warp i ∈ (t.quad q).win) ∧
    (x.dueExchange = none → exec (.windowExchangeDone q) s = .next s)) ∧
  (∀ (gw : Nat) (r : Run) (s : State), s.runs.find? (fun x => x.1 == gw) = some (gw, r) →
    let core : Nat := gw / 64
    let w : Warp := r.shadow.mapThreads r.lanes (fun _ t => { t with pc := r.pc, stat := .ready })
    let v : Nat := (s.warp gw).vdev
    let ends : Prop := ∃ t, exec (.runAheadIssue gw) s = .next t ∧ t.runs.find? (fun x => x.1 == gw) = none ∧
      (∀ l, (∃ b ∈ r.batches, hasLane b.lanes l = true) → ((t.warp gw).thread l).pc = ((s.warp gw).thread l).rpc ∧
        ∃ fseq, ((t.warp gw).thread l).stat = .parked fseq false) ∧
      (t.contract v).fseqc = (s.contract v).fseqc + BitVec.ofNat 32 (r.batches.filter (fun b => b.fseq.isNone)).length
    (∀ t, exec (.runAheadIssue gw) s = .next t → (t.runs.find? (fun x => x.1 == gw)).isSome = true →
      { t with runs := [], cores := [], tlbs := [] } = { s with runs := [], cores := [], tlbs := [] } ∧
      ∀ c, { t.core c with icache := [], icOrder := [] } = { s.core c with icache := [], icOrder := [] }) ∧
    (∀ ws i, s.fetch core r.shadow.vdev r.pc = .words ws → decode ws = .ok i →
      s.regsPending gw r.lanes i.shape = false →
      (i.shape.seals = true ∨ i.isHeader = true ∨ i.isWide = true ∨ 256 ≤ r.count → ends) ∧
      (∀ h k sc, i = .fence h k sc → i.shape.check w r.lanes = none → (s.contract w.vdev).breaksAt w.lseq r.pc = false → r.count < 256 →
        r.lanes ≠ 0 → ∃ t, exec (.runAheadIssue gw) s = .next t ∧
          (t.runs.find? (fun x => x.1 == gw)).map (fun x => (x.2.pc, x.2.count, x.2.poison, x.2.batches)) =
            some (canon (r.pc + BitVec.ofNat 64 (4 * ws.length)), r.count + 1, r.poison, r.batches)))) ∧
  (∀ (q : Nat) (s : State),
    let m : Sampler := (s.quad q).sampler
    let at' : Nat := m.start + (m.count + 1) * m.per
    (m.mode ≠ 1 ∨ (s.quad q).clock ≤ at' → exec (.stallSample q) s = .next s) ∧
    (m.mode = 1 → at' < (s.quad q).clock →
      (s.sampleSlot q = none →
        exec (.stallSample q) s = .next (s.setQuad q { s.quad q with sampler := { m with count := m.count + 1 }, snap := none })) ∧
      (∀ k, s.sampleSlot q = some k →
        let c : Dword × Mask := s.sampleSet q k
        let rec' : List Dword := [BitVec.ofNat 64 (field c.1 56 2),
          BitVec.ofNat 64 (c.2.toNat * 2 ^ 32 + s.sampleClass q k * 2 ^ 28 + k * 2 ^ 24),
          BitVec.ofNat 64 (field ((s.sampleWarp q k).thread (lowest c.2)).rpc 56 2), BitVec.ofNat 64 at']
        exec (.stallSample q) s = .next ((s.setQuad q { s.quad q with
          sampler := { m with count := m.count + 1, next := (k + 1) % 16 }, snap := none }).sampleRecord q m.start rec'))))

/-- R221, R309, R310, R313 to R315, R431 to R434: a job starts once no earlier job of its queue conflicts with it; an access moves its
next element, zeros for one out of range, and a page that is not there parks it; what has been performed is subtracted from the
closure's `PEND`; it leaves the queue when all is done, a collective once its flits are acknowledged too; a peer's contribution lands.
That an access event moves its elements and then subtracts their bytes (assumption 27), and that a contribution lands before the combine
of an all-reduce reads it (assumption 48), are the model's readings. -/
def Obligations.EngineJobsRun : Prop :=
  ∀ (tract id : Nat) (s : State) (j : Job),
    let here (st : JState) : Prop := s.jobs.find? (fun x => x.id == id && x.tract == tract && x.state == st) = some j
    let put (y : State) (x : Job) : State := { y with jobs := y.jobs.map (fun z => if z.id == x.id then x else z) }
    let closed (c : Nat) : Prop := s.jobClosed j c = true
    let e : List Dword := j.entry
    let n : Nat := entBytes e
    let i : Nat := j.next
    let moves : Prop := here .running ∧ ¬ closed j.sCore ∧ j.back = [] ∧ i < j.e0 * j.e1 ∧ entFmt e ≠ 1
    let after (v : State) (x : Job) : State :=
      (v.modParcel j.vdev j.lseq j.pseq (fun p => { p with progress := 0 })).jobAfter x none
    -- start
    (s.jobs.find? (fun x => x.id == id && x.tract == tract && x.state == .queued) = none →
      exec (.engineJobStart tract id) s = .next s) ∧
    (here .queued →
      let earlier : List Job := (s.jobs.filter (fun x => x.tract == tract)).takeWhile (fun x => x.id != id)
      let may : Prop := (∀ x ∈ earlier, j.conflicts x = false) ∧
        (∀ x ∈ s.savedJobs, x.tract = tract → x.vdev = j.vdev → x.id < j.id → j.conflicts x = false) ∧ s.jobBarred j = false ∧ (s.core j.sCore).survey = .none
      (¬ may → exec (.engineJobStart tract id) s = .next s) ∧
      (may → (j.kind = .cpyIn ∨ j.kind = .cpyOut) → exec (.engineJobStart tract id) s = .next (put s { j with state := .running })) ∧
      (may → j.kind = .gath → s.badW = [] → s.lost = [] → s.badSec = [] →
        exec (.engineJobStart tract id) s = .next (put s { j with
          state := .running,
          idx := (List.range (entDim j.ientry 0)).map (fun k => BitVec.ofNat 32 (s.valueAt (j.ik + elemAt j.ientry k []) 4)) })) ∧
      (may → j.kind = .coll → ∀ u x, s.collStart j = (u, .ok x) →
        exec (.engineJobStart tract id) s =
          .next ((put u x).modParcel x.vdev x.lseq x.pseq (fun p => { p with progress := 0 }))) ∧
      (j.sent = true → s.collStart j = (s, .ok { j with state := .running }))) ∧
    -- access
    (moves → j.kind = .cpyIn → s.jobHeldBack j i = false → ∀ c, j.coords i = some c →
      let a : Nat := (j.addr c).1
      a % 128 + n ≤ 128 → (s.contract j.vdev).watchHit false a n = none →
      ∀ u k b, s.translate (tract / 12) j.vdev (BitVec.ofNat 64 a) false false = (u, .ok k b) → u.clear →
        ∃ v, u.StoredAt v (j.spot i) (u.bytes k n) ∧
          exec (.engineJobAccess tract id 1) s = .next (after v { j with next := i + 1, moved := j.moved + entHalves e })) ∧
    (moves → j.kind = .cpyIn → s.jobHeldBack j i = false → j.coords i = none → s.clear →
      ∃ v, s.StoredAt v (j.spot i) (List.replicate n 0) ∧
        exec (.engineJobAccess tract id 1) s = .next (after v { j with next := i + 1, moved := j.moved + entHalves e })) ∧
    (moves → j.kind = .cpyOut → s.badW = [] → s.badSec = [] → s.lost = [] → s.inval = [] → ∀ c, j.coords i = some c →
      let a : Nat := (j.addr c).1
      a % 128 + n ≤ 128 → (s.contract j.vdev).watchHit true a n = none →
      ∀ u k, s.translate (tract / 12) j.vdev (BitVec.ofNat 64 a) true false = (u, .ok k false) → u.clear →
        ∃ v, u.StoredAt v k (s.bytes (j.spot i) n) ∧
          exec (.engineJobAccess tract id 1) s = .next (after v { j with next := i + 1, moved := j.moved + entHalves e })) ∧
    (moves → j.kind = .cpyOut → j.coords i = none →
      exec (.engineJobAccess tract id 1) s = .next (after s { j with next := i + 1 })) ∧
    -- a fault
    (moves → j.kind = .cpyIn → s.jobHeldBack j i = false → j.clo = none → j.subbed = j.moved / 2 → ∀ c, j.coords i = some c →
      let a : Nat := (j.addr c).1
      a % 128 + n ≤ 128 → ∀ u f, s.translate (tract / 12) j.vdev (BitVec.ofNat 64 a) false false = (u, .fault f) →
        let w : State := put (put u j) j
        let r : State × Word := w.record (w.jobRec j f (some (pageOf a))) false
        exec (.engineJobAccess tract id 1) s = .next (
          if f = 0x10 ∨ f = 0x11 then put r.1 { j with state := .parked, fseq := r.2 }
          else if f = 0x12 ∨ f = 0x13 then r.1.killParcel j.gw j.vdev j.lseq j.pseq f
          else r.1.endParcel j.vdev j.lseq j.pseq f)) ∧
    -- subtraction
    (∀ (y : State) (x : Job), x.clo = none →
      y.jobAfter x none = put (put y x) { x with subbed := x.moved / 2 } ∨ (y.jobClosed x x.cloCore = true ∧ y.jobAfter x none = put (put y x) x)) ∧
    (∀ (y : State) (x : Job) (c o k : Nat), x.clo = some (c, o, k) → y.jobClosed x c = false → x.subbed < x.moved / 2 →
      y.badW = [] → y.lost = [] → y.badSec = [] →
      let d0 : Nat := y.valueAt k 8
      let d1 : Dword := BitVec.ofNat 64 (y.valueAt (k + 8) 8)
      let done : Nat := (x.moved / 2 - x.subbed) % 2 ^ 48
      d1.getLsbD 23 = true → 2 ^ 48 ≤ d0 →
        ∃ z, (put y x).Settles z k (d0 / 2 ^ 48) ((d0 % 2 ^ 48 + (2 ^ 48 - done)) % 2 ^ 48) d1 (field d1 15 0) ∧
          y.jobAfter x none = put z { x with subbed := x.moved / 2 }) ∧
    -- completion
    (here .running → j.kind ≠ .coll → (j.next < j.total ∨ j.back ≠ []) → exec (.engineJobComplete tract id) s = .next s) ∧
    (here .running → j.kind ≠ .coll → j.total ≤ j.next → j.back = [] → ¬ closed j.cloCore → (j.clo = none ∨ j.bytes ≤ j.subbed) →
      exec (.engineJobComplete tract id) s = .next { s with jobs := s.jobs.filter (fun x => x.id != id) }) ∧
    (here .running → j.kind = .coll →
      let past : Prop := j.sent = true ∧ j.flits = [] ∧ j.collWaits = false ∧ j.uncombined = false
      (¬ past → exec (.engineJobComplete tract id) s = .next s) ∧
      (past → ¬ closed j.cloCore → (j.clo = none ∨ j.moved / 2 ≤ j.subbed) →
        exec (.engineJobComplete tract id) s = .next { s with jobs := s.jobs.filter (fun x => x.id != id) })) ∧
    -- a peer's contribution
    (∀ (m : Nat) (data : List Byte), here .running → collTakes j m data = true →
      ∀ u, State.jobWriteAll (data.length + 1) s j (collLands j m).1 data = (u, .ok ()) →
        (u.contract j.vdev).watchHit true (collLands j m).1 data.length = none →
        exec (.collContribution tract id m data) s = .next (after u { j with
          landed := j.landed ++ [m], moved := if collOp j.desc ≤ 1 then j.moved else j.moved + 2 * data.length }))

/-- R329, R336 to R342, R359, R362, R406 to R409 and R436: a launch record is refused with its reason or accepted; a kick takes its queue
or leaves its pending bit; a parcel is placed, its warps start once its boxes have landed, and it is DONE once all of it has
finished, SETTLED with it when its cores have passed, or ENDED when it overruns or hangs. That a refusal without an estimate carries a
free value (assumption 6), that reason 2 stands for a launch while ownership moves (assumption 38), and that a fresh parcel's accumulators
are zero (assumption 49), are the model's choices. -/
def Obligations.LaunchesRunParcels : Prop :=
  -- records
  (∀ (v : Nat) (d : List Dword) (s : State), d.length = 8 → (s.contract v).rights = true → (s.contract v).stop = false →
    (s.contract v).v = true → v = recVdev d →
    let w (k : Nat) : Dword := d.getD k 0
    let exec' : Res := exec (.launchRecord (.queue v) d) s
    let age : Nat := (hi32 (w 0) - (s.contract v).lseql).toNat
    let refuses (reason : Nat) (y : State) (est : Dword) : Prop := (w 3).toNat % 64 = 0 → ∀ u,
      y.feStore 8 v (w 3 + BitVec.ofNat 64 (32 * (1 % 2 ^ field (w 4) 35 32)))
        (dwordBytes [BitVec.ofNat 64 ((hi32 (w 0)).toNat * 2 ^ 32 + 0xFFFF * 2 ^ 16 + 3 * 2 ^ 8 + reason),
          BitVec.ofNat 64 ((lo32 (w 4)).toNat * 2 ^ 32 + 1), est, 0]) = (u, .ok ()) → exec' = .next u
    let refused (reason : Nat) : Prop := refuses reason { s with freeCtr := s.freeCtr + 1 } (Config.freeValue s.freeCtr)
    (recordOk d = false → refused 1) ∧
    (recordOk d = true → s.transfer = true → refused 2) ∧
    (recordOk d = true → s.transfer = false → (age = 0 ∨ 2 ^ 31 < age) → refused 3) ∧
    (recordOk d = true → s.transfer = false → age ≠ 0 → age ≤ 2 ^ 31 → (∀ u, s.readImage v (w 1) = (u, none) → refused 4) ∧
      ∀ u r, s.readImage v (w 1) = (u, some r) → (s.imageOk v r = false → refused 4) ∧
        (s.imageOk v r = true → s.inContract (s.contract v) r = false → refused 5) ∧
        (s.imageOk v r = true → s.inContract (s.contract v) r = true →
          (s.pathEst (s.contract v) r.tt (r.parcels.map (·.1)) = none → refused 6) ∧
          ∀ e, s.pathEst (s.contract v) r.tt (r.parcels.map (·.1)) = some e → field (w 2) 47 0 < s.backlog v + e →
            refuses 6 s (BitVec.ofNat 64 e))) ∧
    (recordOk d = true → s.transfer = false → age ≠ 0 → age ≤ 2 ^ 31 → ∀ u r e, s.readImage v (w 1) = (u, some r) →
      s.imageOk v r = true → s.inContract (s.contract v) r = true →
      s.pathEst (s.contract v) r.tt (r.parcels.map (·.1)) = some e → s.backlog v + e ≤ field (w 2) 47 0 →
      ∃ t x, exec' = .next t ∧ t.launches = u.launches ++ [x] ∧ (t.contract v).lseql = hi32 (w 0) ∧
        x.vdev = v ∧ x.lseq = hi32 (w 0) ∧ x.cls = field (w 0) 15 8 ∧ x.image = w 1 ∧ x.budget = field (w 2) 47 0 ∧ x.compl = w 3 ∧
        x.est = e ∧ x.parcels.map (·.pseq) = r.parcels.map (·.1.pseq) ∧ (∀ p ∈ x.parcels, p.preds = [] → p.state ≠ .waiting) ∧
        (∀ i, i < r.tt.length → t.byte ((u.contract v).ttbase.toNat + i) = r.tt.getD i 0) ∧ t.warps = u.warps ∧ t.jobs = u.jobs)) ∧
  -- kicks and frames
  (∀ (v n : Nat) (tail : BitVec 16) (s : State),
    let c : Contract := s.contract v
    let at' : Nat := c.qtab.toNat + 16 * n
    (s.hostWaits = true → exec (.kick v n tail) s = .next { s with extQ := s.extQ ++ [.kick v n tail] }) ∧
    (s.hostWaits = false → (c.v = false ∨ 32 ≤ n) → exec (.kick v n tail) s = .next s) ∧
    (s.hostWaits = false → c.v = true → n < 32 → ∃ u, s.StoredAt u (at' + 8) (leBytes 2 tail.toNat) ∧
      (12 < u.qLog v n → exec (.kick v n tail) s = .next (u.setContract v { c with drop := c.drop + 1 })) ∧
      (u.qLog v n ≤ 12 → c.rights = false ∨ c.stop = true →
        exec (.kick v n tail) s = .next (u.setContract v { c with pending := c.pending ||| BitVec.ofNat 32 (2 ^ n) })) ∧
      (u.qLog v n ≤ 12 → c.rights = true → c.stop = false → exec (.kick v n tail) s = .next (u.takeQueue v n) ∧
        (u.qHead v n = u.qTail v n → exec (.kick v n tail) s = .next u)))) ∧
  (∀ (port : Nat) (mac : BitVec 48) (p : List Dword) (s : State),
    let h : Dword := p.getD 0 0
    let n : Nat := field h 39 32
    let good : Prop := field h 47 40 = 1 ∧ 1 ≤ n ∧ n ≤ 140 ∧ field h 31 0 = 0 ∧ p.length = 1 + 8 * n
    let one (y : State) (i : Nat) : State :=
      let d : List Dword := (p.drop (1 + 8 * i)).take 8
      y.offer (y.bound (.ether port mac (BitVec.ofNat 16 (field h 63 48))) d) d
    (¬ good → exec (.launchFrame port mac p) s = .next s) ∧
    (good → exec (.launchFrame port mac p) s = .next ((List.range n).foldl one s))) ∧
  -- placement and start
  (∀ (v : Nat) (s : State) (x : Launch) (p : Parcel) (at' : List (Nat × List Nat)),
    (s.poolHead v = none → exec (.dispatchParcel v) s = .next s) ∧
    (s.poolHead v = some (x, p) → p.state = .ready ∧ p.pseq ∉ x.blocked) ∧
    (s.poolHead v = some (x, p) → s.parcel? x.vdev x.lseq p.pseq = some p → s.fit v p true = some at' →
    ((s.contract v).rights = false ∨ (s.contract v).stop = true → exec (.dispatchParcel v) s = .next s) ∧
    ((s.contract v).rights = true → (s.contract v).stop = false → p.boxes = [] ∨ p.resumed = true → ∃ t y,
      exec (.dispatchParcel v) s = .next t ∧ t.parcel? x.vdev x.lseq p.pseq = some y ∧ y.state = .staging ∧
      y.place = at'.map (fun a => (a.1, a.2.headD 0 % 4)) ∧ y.triggered = false ∧
      { t with launches := [], cores := [] } = { s with launches := [], cores := [] } ∧
      ∀ c, { t.core c with keys := [] } = { s.core c with keys := [] }))) ∧
  (∀ (v : Nat) (l : Word) (k : Nat) (s : State) (x : Launch) (p : Parcel), s.launch? v l = some x → s.parcel? v l k = some p →
    (p.state ≠ .staging ∨ (∃ j ∈ s.jobs, j.vdev = v ∧ j.lseq = l ∧ j.pseq = k ∧ j.box.isSome = true) →
      exec (.stagingDone v l k) s = .next s) ∧
    (p.state = .staging → (∀ j ∈ s.jobs, j.vdev = v → j.lseq = l → j.pseq = k → j.box = none) → p.resumed = false →
      ∀ u ws, s.readStart x p = (u, some ws) → (ws.map (·.1)).Nodup → (∀ e ∈ ws, e.2.tmask ≠ 0) →
      ∃ t y, exec (.stagingDone v l k) s = .next t ∧ (∀ e ∈ ws, t.warp e.1 = e.2 ∧ e.1 ∈ t.resident) ∧
        (∀ gw, (∀ e ∈ ws, gw ≠ e.1) → t.warp gw = u.warp gw) ∧ t.mem = u.mem ∧
        (∀ q ∈ p.accQuads, (t.quad q).work = Acc.init ∧ (t.quad q).commit = Acc.init) ∧
        (∀ q ∈ p.quadsAt, (t.quad q.2).work.cnt = 0 ∧ (t.quad q.2).work.var = 0 ∧ (t.quad q.2).work.nrm = 0) ∧
        (t.parcel? x.vdev x.lseq p.pseq = some y → y.state = .running))) ∧
  -- completion
  (∀ (v : Nat) (l : Word) (k : Nat) (s : State) (x : Launch) (p : Parcel), s.launch? v l = some x → s.parcel? v l k = some p →
    let ended (i : Instr) (cause : Byte) : Prop := ∃ t y, exec i s = .next t ∧ (∀ gw ∈ t.resident, (t.warp gw).ofParcel v l k = false) ∧
      (∀ j ∈ t.jobs, ¬ (j.vdev = v ∧ j.lseq = l ∧ j.pseq = k)) ∧ t.parcel? v l k = some y ∧ y.state = .ended ∧ y.cause = cause
    (p.state ≠ .running ∨ s.parcelOver v l k = false → exec (.parcelDone v l k) s = .next s) ∧
    (p.state = .running → s.parcelOver v l k = true → ∃ t y z, exec (.parcelDone v l k) s = .next t ∧ t.parcel? v l k = some y ∧
      (y.state = .done ∨ y.state = .settled) ∧ ((∀ e ∈ p.ranOn, e.2 < (s.core e.1).passed) → y.state = .settled) ∧
      ((∃ e ∈ p.ranOn, (s.core e.1).passed ≤ e.2) →
        (∀ x' ∈ s.launches, x'.vdev = v → x'.lseq = l → ∀ p' ∈ x'.parcels, p'.pseq = k → p' = p) → y.state = .done) ∧
      y.place = [] ∧ t.launch? v l = some z ∧ x.rseq + 1 ≤ z.rseq ∧ t.warps = s.warps ∧ t.jobs = s.jobs) ∧
    (p.state = .running → p.wcet ≠ 0 → p.wcet < p.clocks → ended (.overrun v l k) 0x32) ∧
    (p.state ≠ .running ∨ p.wcet = 0 ∨ p.clocks ≤ p.wcet → exec (.overrun v l k) s = .next s) ∧
    (p.state = .running → (s.contract v).wdog ≠ 0 → (s.contract v).wdog.toNat ≤ p.progress → ended (.hang v l k) 0x34) ∧
    (p.state ≠ .running ∨ (s.contract v).wdog = 0 ∨ p.progress < (s.contract v).wdog.toNat →
      exec (.hang v l k) s = .next s))

/-! ### Pre-emption, memory tiers, tenants, host and boot (spec/18, spec/20 to spec/24) -/

/-- R343 to R345, R350 to R352, R358 and R359: the end of a slice takes the device's issue rights and puts a request on its quadrants;
a held warp enters the pre-emption handler, or is saved; a forced save takes threads back to their resume PCs; a slice's start
brings a saved warp back with its parcel's image; resurvey drains a core, zeroes it, and gives it back or takes it out of service. That
results on their way land before a warp enters its handler or is saved (assumption 30), that a pass starts at each multiple of 5,000,000
clocks and scans for 1,700,000 from the end of the drain (assumption 39), and what a drain captures (assumption 39), are the model's
readings. -/
def Obligations.PreemptionSavesAndResumes : Prop :=
  -- slices
  (∀ (v : Nat) (s : State),
    let c : Contract := s.contract v
    let budget (q : Nat) : Nat := match (s.quad q).req with
      | some r => if r.vdev = v then min r.ends ((s.quad q).clock + c.pbud.toNat) else (s.quad q).clock + c.pbud.toNat
      | none => (s.quad q).clock + c.pbud.toNat
    let staged (j : Job) : Prop := j.box.isSome = true ∧ j.vdev = v ∧ ∃ x ∈ s.launches, ∃ p ∈ x.parcels,
      x.vdev = v ∧ x.lseq = j.lseq ∧ p.pseq = j.pseq ∧ p.state = .staging
    (c.v = false ∨ c.rights = false ∨ c.slice = 0 → exec (.sliceEnd v) s = .next s) ∧
    (c.v = true → c.rights = true → c.slice ≠ 0 → ∃ t, exec (.sliceEnd v) s = .next t ∧
      { t with contracts := [], quads := [], jobs := [], savedJobs := [], launches := [] } =
        { s with contracts := [], quads := [], jobs := [], savedJobs := [], launches := [] } ∧
      t.contract v = { c with rights := false } ∧ (∀ w, w ≠ v → t.contract w = s.contract w) ∧
      (∀ q, t.quad q = if q ∈ s.quadsOf v then
          { s.quad q with
            req := some { kind := .slice, vdev := v, ends := budget q }, sampler := { (s.quad q).sampler with mode := 0 } }
        else s.quad q) ∧
      (∀ j ∈ s.jobs, (staged j → j ∉ t.jobs) ∧ (¬ staged j → j ∈ t.jobs ∨ j ∈ t.savedJobs)) ∧
      -- where warps of the device stand on all its quadrants, nothing else is saved yet
      ((∀ q ∈ s.quadsOf v, ∃ gw ∈ s.resident, quadOfWarp gw = q ∧ (s.warp gw).vdev = v) →
        t.savedJobs = s.savedJobs ∧ (∀ j, j ∈ t.jobs ↔ j ∈ s.jobs ∧ ¬ staged j) ∧
        t.launches = s.launches.map (fun x => { x with parcels := x.parcels.map (fun p =>
          if x.vdev = v ∧ p.state = .staging then { p with state := .ready, place := [], quadsAt := [] } else p) })) ∧
      -- elsewhere, jobs of exited warps that have not started are, and running parcels' accumulators, tags and extents
      ∀ q ∈ s.quadsOf v, (∀ gw ∈ s.resident, quadOfWarp gw = q → (s.warp gw).vdev ≠ v) →
        (∀ j ∈ s.jobs, j.vdev = v → quadOfWarp j.gw = q → j.box = none → j.state = .queued → j ∉ t.jobs ∧ j ∈ t.savedJobs) ∧
        ∀ l p, s.parcel? v l p.pseq = some p → p.state = .running → (∃ e ∈ p.quadsAt, e.2 = q) →
          s.coreSaved v l p.pseq (coreOfQuad q) = false → ∃ y, t.parcel? v l p.pseq = some y ∧ q ∈ y.imgFull)) ∧
  (∀ (v : Nat) (s : State),
    let c : Contract := s.contract v
    let may : Prop := c.v = true ∧ c.rights = false ∧ c.stop = false ∧ s.leaving v = false
    (¬ may → exec (.sliceStart v) s = .next s) ∧
    (∀ x : Saved, may → s.saved = [x] → x.warp.vdev = v → x.warp.halts = [] → s.savedJobs = [] → s.badW = [] →
      (∀ y ∈ s.launches, ∀ p ∈ y.parcels, p.imgOut = []) → (∀ j ∈ s.jobs, j.vdev = v → j.clo = none) →
      (∀ y, s.launch? v x.warp.lseq = some y → y.replay = false) → c.qtab.toNat + 512 ≤ 2 ^ 48 →
      (∀ n, n < 32 → c.pending.getLsbD n = false ∧ (s.qLog v n ≤ 12 → s.qHead v n = s.qTail v n)) →
      let q : Nat := quadOfWarp x.gw
      let core : Nat := coreOfQuad q
      s.owns v q = true → (s.core core).survey = .none → (s.core core).service = true →
      ∃ t, exec (.sliceStart v) s = .next t ∧ t.contract v = { c with rights := true } ∧ t.saved = [] ∧ x.gw ∈ t.resident ∧
        NMap.get 0 (t.core core).keys (s.setOf core (q % 4)).1 = ((s.launch? v x.warp.lseq).map (·.key)).getD 0 ∧
        { t.warp x.gw with threads := [] } = { x.warp with threads := [] } ∧
        (∀ l, (t.warp x.gw).thread l =
          if hasLane x.warp.live l then { x.warp.thread l with retired := 0 } else x.warp.thread l) ∧
        (∀ gw, gw ≠ x.gw → t.warp gw = s.warp gw) ∧
        (∀ k, k ∈ s.quadsOf v → (s.core (coreOfQuad k)).survey = .none → ∀ r, (t.quad k).req = some r → r.vdev ≠ v) ∧
        ∀ p k n, s.parcel? v x.warp.lseq x.warp.pseq = some p → p.imgFull = [] → (p.imgScr.map (·.1)).Nodup →
          (∀ gw ∈ s.warpsOf v x.warp.lseq x.warp.pseq, coreOfQuad (quadOfWarp gw) ≠ core) → s.extentOf p core = some (k, n) →
          (∀ a, t.byte a = if k ≤ a ∧ a < k + n then NMap.get 0 p.imgScr a else s.byte a) ∧
          (∀ e, NMap.get 0 (t.core core).tags e =
            if e ∈ s.tagsOf p core then NMap.get 0 p.imgTags (256 * core + e) else NMap.get 0 (s.core core).tags e) ∧
          ∀ y, y ∈ p.accQuads → coreOfQuad y = core →
            (t.quad y).work = NMap.get Acc.init p.imgAcc y ∧ (t.quad y).commit = NMap.get Acc.init p.imgAcc y)) ∧
  -- handler entry and forced saves
  (∀ (gw : Nat) (s : State),
    let w : Warp := s.warp gw
    let held : Prop := gw ∈ s.resident ∧ s.asked gw = true ∧ s.fullyHeld gw = true ∧ s.resultsOut gw w.live = false
    let quiet : Prop := s.runs.find? (fun r => r.1 == gw) = none ∧ w.gangGrps = [] ∧ w.wide = false ∧ w.foot = []
    let okHold : Prop := (s.badW = [] ∨ s.walked = []) ∧ ∀ k ∈ s.badW, k < holdWord gw 0 ∨ holdWord gw 0 + 8192 ≤ k
    let entry : Dword := (s.contract w.vdev).phndl
    let due : Prop := gw ∈ s.resident ∧ (∃ r, (s.quad (quadOfWarp gw)).req = some r ∧ r.vdev = w.vdev ∧
        r.ends ≤ (s.quad (quadOfWarp gw)).clock) ∧ (w.inPre = true ∨ s.resultsOut gw (w.live &&& ~~~ w.offBoundary) = false)
    let saves (t : State) (pc : Thread → Dword) : Prop := gw ∉ t.resident ∧ ∃ x, t.saved = s.saved ++ [x] ∧ x.gw = gw ∧
      (∀ j ∈ s.jobs, j.box = none → j.unstarted = true → j.gw = gw → w.ofParcel j.vdev j.lseq j.pseq = true →
        j ∉ t.jobs ∧ j ∈ t.savedJobs) ∧
      (∀ j ∈ s.jobs, j.box ≠ none ∨ j.unstarted = false ∨ quadOfWarp j.gw ≠ quadOfWarp gw → j ∈ t.jobs) ∧
      x.warp.hold = w.hold ∧ x.warp.uni = w.uni ∧ x.warp.pred = w.pred ∧ x.warp.rejoin = w.rejoin ∧ x.warp.live = w.live ∧
      x.warp.nearW = [] ∧ x.warp.latchV = [] ∧ x.warp.inPre = false ∧ x.warp.vdev = w.vdev ∧ x.warp.groups = w.groups ∧
      (∀ l, hasLane w.live l = true → (x.warp.thread l).pc = pc (w.thread l) ∧ (x.warp.thread l).rpc = pc (w.thread l) ∧
        (x.warp.thread l).stat = .ready ∧ (x.warp.thread l).needHdr = true ∧ (x.warp.thread l).trap = (w.thread l).trap) ∧
      ∀ p, s.parcel? w.vdev w.lseq w.pseq = some p →
        ∃ y, t.parcel? w.vdev w.lseq w.pseq = some y ∧ quadOfWarp gw ∈ y.imgFull
    (¬ held → exec (.preemptHandlerEntry gw) s = .next s) ∧
    (held → s.gangOpen gw = true →
      exec (.preemptHandlerEntry gw) s = .next (if w.gangEnd then s else s.setWarp gw { w with gangEnd := true })) ∧
    (held → quiet → w.halts = [] → entry ≠ 0 → ∃ t, exec (.preemptHandlerEntry gw) s = .next t ∧
      { t with warps := [] } = { s with warps := [] } ∧ (∀ k, k ≠ gw → t.warp k = s.warp k) ∧
      { t.warp gw with threads := [], nearW := [], latchV := [] } =
        { w with threads := [], nearW := [], latchV := [], wides := [], inPre := true, savHold := [] } ∧
      (∀ k, k < 4 → (t.warp gw).latchValid k = 0) ∧ (∀ r, r < 16 → (t.warp gw).nearWritten r = 0) ∧
      ∀ l, (t.warp gw).thread l = if hasLane w.live l then
        { w.thread l with
          pc := entry, rpc := (w.thread l).pc, needHdr := true, again := false, stat := .ready, survW := 0, survM := 0,
          resume := (w.thread l).pc, retired := (w.thread l).retired + (w.thread l).since, since := 0 } else w.thread l) ∧
    (held → quiet → okHold → w.halts ≠ [] ∨ entry = 0 → ∃ t, exec (.preemptHandlerEntry gw) s = .next t ∧ saves t (fun x => x.pc)) ∧
    (¬ due → exec (.forcedSave gw) s = .next s) ∧
    (due → quiet → okHold → ∃ t, exec (.forcedSave gw) s = .next t ∧
      saves t (fun x => if w.inPre then x.resume else if x.atBoundary then x.pc else x.rpc))) ∧
  -- resurvey
  (∀ (die : Nat) (s : State),
    let n : Nat := NMap.get 0 s.rotate die
    let core : Nat := 48 * die + n % 48
    let x : Core := s.core core
    let due : Prop := 5000000 * (n + 1) ≤ s.pclk ∧ die < 8 ∧ x.survey = .none
    (¬ due → exec (.resurveyStart die) s = .next s) ∧
    (due → x.service = false → exec (.resurveyStart die) s = .next { s with rotate := NMap.set 0 s.rotate die (n + 1) }) ∧
    (due → x.service = true → ∃ t, exec (.resurveyStart die) s = .next t ∧ t.rotate = NMap.set 0 s.rotate die (n + 1) ∧
      t.core core = { x with survey := .draining, begun := x.begun + 1, scanLeft := 1700000 } ∧ (∀ c, c ≠ core → t.core c = s.core c) ∧
      t.warps = s.warps ∧ t.mem = s.mem ∧ t.contracts = s.contracts ∧
      (∀ q, coreOfQuad q ≠ core → t.quad q = s.quad q) ∧
      (∀ q, coreOfQuad q = core → (∀ gw ∈ s.resident, quadOfWarp gw ≠ q) →
        t.quad q = { s.quad q with sampler := { (s.quad q).sampler with mode := 0 } }) ∧
      (∀ gw ∈ s.resident, coreOfQuad (quadOfWarp gw) = core → ∃ r, (t.quad (quadOfWarp gw)).req = some r ∧ r.kind = .drain ∧
        r.vdev = s.tenantOf (quadOfWarp gw) ∧
        (t.quad (quadOfWarp gw)).sampler = { (s.quad (quadOfWarp gw)).sampler with mode := 0 }) ∧
      ∀ y p, y ∈ s.launches → s.parcel? y.vdev y.lseq p.pseq = some p → p.state = .running → s.placedOn y p core = true →
        s.coreSaved y.vdev y.lseq p.pseq core = false → ∃ z, t.parcel? y.vdev y.lseq p.pseq = some z ∧ core ∈ z.imgExt)) ∧
  (∀ (core : Nat) (s : State),
    let x : Core := s.core core
    let k : Nat := scrKey core 0 0
    let ends (pass : Bool) : Prop := ∃ t, exec (.resurveyScanEnd core pass) s = .next t ∧
      t.core core = { x with
        tags := [], icache := [], icOrder := [], survey := .none, service := (if pass then x.service else false),
        passed := (if pass then x.begun else x.passed) } ∧
      (∀ c, c ≠ core → t.core c = s.core c) ∧ (∀ a, t.byte a = if k ≤ a ∧ a < k + 2 ^ 23 then 0 else s.byte a) ∧
      (∀ q, t.quad q = if coreOfQuad q = core then { s.quad q with work := Acc.init, commit := Acc.init, req := none } else s.quad q) ∧
      (∀ w, w ∈ t.badW ↔ w ∈ s.badW ∧ ¬ (k ≤ 4 * w ∧ 4 * w < k + 2 ^ 23) ∧
        ¬ (tagWord core 0 ≤ w ∧ w < tagWord core 256) ∧ ¬ (holdWord (64 * core) 0 ≤ w ∧ w < holdWord (64 * core + 64) 0)) ∧
      { t with cores := [], mem := [], quads := [], badW := [] } = { s with cores := [], mem := [], quads := [], badW := [] }
    ((x.survey = .none ∨ s.drained core = false ∨ x.scanLeft ≠ 0) → ∀ pass, exec (.resurveyScanEnd core pass) s = .next s) ∧
    (x.survey = .draining → s.drained core = true → x.scanLeft = 0 → s.launches = [] → s.saved = [] → s.savedJobs = [] →
      ends true ∧ ends false) ∧
    (∀ y p b, x.survey = .draining → s.drained core = true → x.scanLeft = 0 → s.badW = [] → s.launches = [y] → y.parcels = [p] → p.state = .done →
      p.ranOn = [(core, b)] → b < x.begun → s.saved = [] → s.savedJobs = [] →
      ∃ t z, exec (.resurveyScanEnd core true) s = .next t ∧ t.parcel? y.vdev y.lseq p.pseq = some z ∧ z.state = .settled))

/-- R206, R220, R357, R387 to R390, R393 and R396 to R400: a page service stores its leaf and releases what waits on its record, or
makes the record a program error; an invalidation leaves the old entry in force until it completes; a migration copies a frame;
a freed frame is zeroed; a failing unit's entries go to the survivors in turn, and the tier's swaths move to the new table; a
parity walk repairs a group's only bad word, and a group that it has found past repair stops the next read or store of any word of it.
The groups and that rule (assumption 7), what an invalidation keeps in force (assumption 10), the threads of a page that Larkar cannot map
(assumption 33), clean frames, queues and staging areas (assumption 40), and where a leaf is stored (assumption 41), are the model's
readings. -/
def Obligations.MemoryTiersChange : Prop :=
  -- page service
  (∀ (v : Nat) (fseq : Word) (leaves : List (Dword × Dword)) (s : State),
    let open' (x : Nat × List Dword) : Bool := x.1 == v && recFseq x.2 == fseq && recCause x.2 != 0x21 && recCause x.2 != 0x22
    let parked (gw l : Nat) : Prop := gw ∈ s.resident ∧ (s.warp gw).vdev = v ∧ hasLane (s.warp gw).live l = true ∧
      ∃ b, ((s.warp gw).thread l).stat = .parked fseq b
    (s.serviceWaits v leaves = true →
      exec (.pageService v fseq leaves true) s = .next { s with extQ := s.extQ ++ [.pageService v fseq leaves true] }) ∧
    (∀ ok, s.larkarQ.find? open' = none → ok = false ∨ s.serviceWaits v leaves = false →
      exec (.pageService v fseq leaves ok) s = .next s) ∧
    (∀ x, s.larkarQ.find? open' = some x → s.held = [] →
      (s.serviceWaits v leaves = false → ∃ t, exec (.pageService v fseq leaves true) s = .next t ∧
        (∀ gw l, (t.warp gw).thread l =
          { (s.warp gw).thread l with stat := (t.warp gw).thread l |>.stat }) ∧
        (∀ gw l, parked gw l → ((t.warp gw).thread l).stat = .ready) ∧
        (∀ gw l, ¬ parked gw l → (t.warp gw).thread l = (s.warp gw).thread l) ∧
        (∀ gw, { t.warp gw with threads := [] } = { s.warp gw with threads := [] }) ∧
        t.larkarQ = s.larkarQ.filter (fun y => !(y.1 == v && recFseq y.2 == fseq)) ∧
        t.jobs = s.jobs.map (fun j =>
          if j.vdev = v ∧ j.state = .parked ∧ j.fseq = fseq then
            { j with state := if j.kind = .coll ∧ j.sent = false then .queued else .running }
          else j) ∧
        { t with warps := [], larkarQ := [], jobs := [], mem := [], tlbs := [], used := [], inval := [], scrub := [] } =
          { s with warps := [], larkarQ := [], jobs := [], mem := [], tlbs := [], used := [], inval := [], scrub := [] } ∧
        (leaves = [] → t.mem = s.mem ∧ t.tlbs = s.tlbs ∧ t.used = s.used ∧ t.inval = s.inval ∧ t.scrub = s.scrub) ∧
        (∀ f ∈ s.scrub, f ∈ t.scrub) ∧
        ∀ va e a big, leaves = [(va, e)] → s.leafSlot v va = some (a, big) →
          (∃ u, s.StoredAt u (tierKey 0 a) (leBytes 8 e.toNat) ∧ t.mem = u.mem) ∧ (∀ die, t.tlb? die v va = none) ∧
          (∀ i, i ∈ t.inval ↔ i ∈ s.inval ∧ ¬ (i.vdev = v ∧ i.page = pageOf va.toNat ∧ i.table = none)) ∧
          ∀ f, s.newFrame v va e = some f → f ∈ t.used) ∧
      (∀ gw p, s.parkedWarps v fseq = [gw] → s.jobs = [] →
        s.parcel? v (s.warp gw).lseq (s.warp gw).pseq = some p → ∃ t, exec (.pageService v fseq leaves false) s = .next t ∧
        ((s.warp gw).enters ((s.warp gw).parkedOn fseq) = true → ∀ l, parked gw l →
          ((t.warp gw).thread l).pc = (s.warp gw).handler ∧ ((t.warp gw).thread l).stat = .ready ∧
          ((t.warp gw).thread l).trap.inTrap = true ∧ ((t.warp gw).thread l).trap.fseq = fseq ∧
          ((t.warp gw).thread l).trap.cause = recCause x.2) ∧
        ((s.warp gw).enters ((s.warp gw).parkedOn fseq) = false → ∃ y,
          t.parcel? v (s.warp gw).lseq (s.warp gw).pseq = some y ∧ y.state = .ended ∧ y.cause = recCause x.2)))) ∧
  -- invalidation and migration of pages
  (∀ (v : Nat) (va : Dword) (s : State),
    let page : Dword := pageOf va.toNat
    let keeps (t : State) : Prop := (∃ i, t.inval = s.inval ++ [i] ∧ i.vdev = v ∧ i.page = page) ∧
      { t with inval := [], mem := [], used := [] } = { s with inval := [], mem := [], used := [] } ∧
      (s.invalAt v va = none →
        (∀ die e big k, s.walk v va = .ok (e, big, k) → (t.leaf die v va).2 = .ok (e, big)) ∧
        ∀ die c, s.walk v va = .error c → (t.leaf die v va).2 = .error c)
    let mine (i : Inval) : Bool := i.vdev == v && i.page == page
    (∃ t, exec (.invalidatePage v va none) s = .next t ∧ t.mem = s.mem ∧ keeps t) ∧
    (∀ e, s.leafWaits v va (some e) = true →
      exec (.invalidatePage v va (some e)) s = .next { s with extQ := s.extQ ++ [.invalidatePage v va (some e)] }) ∧
    (∀ e a big, s.leafWaits v va (some e) = false → s.leafSlot v va = some (a, big) →
      ∃ t u, exec (.invalidatePage v va (some e)) s = .next t ∧
        s.StoredAt u (tierKey 0 a) (leBytes 8 e.toNat) ∧ t.mem = u.mem ∧ keeps t ∧
        ∀ f, s.newFrame v va e = some f → f ∈ t.used) ∧
    (s.inval.find? mine = none → exec (.invalidationComplete v va) s = .next s) ∧
    (∀ i, s.inval.find? mine = some i → s.held = [] → ∃ t, exec (.invalidationComplete v va) s = .next t ∧
      t.inval = s.inval.erase i ∧ (∀ die, t.tlb? die v va = none) ∧
      (i.table = none → ∀ x, x ∈ t.tlbs ↔ x ∈ s.tlbs ∧ ¬ (x.vdev = v ∧ if x.big then x.page = field va 56 25
        else if i.big then x.page / 512 = field va 56 25 else x.page = field va 56 16)) ∧
      -- of an entry of level 1 or 2, everything under it
      (∀ level k old, i.table = some (level, k, old) → level = 1 ∨ level = 2 → ∀ x, x ∈ t.tlbs ↔ x ∈ s.tlbs ∧
        ¬ (x.vdev = v ∧ (if x.big then x.page else x.page / 512) / (if level = 1 then 65536 else 1) =
          field va 56 (if level = 1 then 41 else 25))) ∧
      { t with inval := [], tlbs := [], scrub := [] } = { s with inval := [], tlbs := [], scrub := [] } ∧
      ∀ o b e c k, i.old = some (o, b) → t.walk v page = .ok (e, c, k) → pteMig o = true → pteMig e = false →
        leafFrame o b ≠ leafFrame e c → leafFrame o b ∈ t.scrub) ∧
    ∀ (tier : BitVec 2) (frame : BitVec 48),
      (s.copyWaits v va tier frame = true → exec (.migrationCopyDone v va tier frame) s =
        .next { s with extQ := s.extQ ++ [.migrationCopyDone v va tier frame] }) ∧
      (s.copyWaits v va tier frame = false → (∀ e big k, s.walk v va = .ok (e, big, k) → pteMig e = false ∨ tier = 3) →
        exec (.migrationCopyDone v va tier frame) s = .next s) ∧
      (∀ e big k, s.walk v va = .ok (e, big, k) → pteMig e = true → s.invalAt v va ≠ none →
        s.copyWaits v va tier frame = true) ∧
      (∀ e big k, s.copyWaits v va tier frame = false → s.walk v va = .ok (e, big, k) → pteMig e = true → tier ≠ 3 → s.inv →
        s.lost = [] → s.badSec = [] → s.badW = [] →
        let src : Nat := pteTier e * 2 ^ 48 + pteAddr e
        let dst : Nat := tier.toNat * 2 ^ 48 + frame.toNat
        let n : Nat := if big then 2 ^ 25 else 2 ^ 16
        ∃ t, exec (.migrationCopyDone v va tier frame) s = .next t ∧
          { t with mem := [], used := [] } = { s with mem := [], used := [] } ∧
          { tier := tier.toNat, addr := frame.toNat, big := big } ∈ t.used ∧
          ∀ x, t.byte x = if dst ≤ x ∧ x < dst + n then s.byte (src + (x - dst)) else s.byte x)) ∧
  -- freed frames
  (∀ (tier : BitVec 2) (frame : BitVec 48) (big : Bool) (s : State),
    let hit (f : Frame) : Bool := f.tier == tier.toNat && f.addr == frame.toNat
    let freed : Frame := { tier := tier.toNat, addr := frame.toNat, big := big }
    exec (.frameFree tier frame big) s = .next (if freed ∈ s.scrub then s else { s with scrub := s.scrub ++ [freed] }) ∧
    (s.scrubHeads.find? hit = none → exec (.scrubDone tier frame) s = .next s) ∧
    (∀ f rest, s.scrub = f :: rest → f ∈ s.scrubHeads) ∧
    (∀ f, s.scrubHeads.find? hit = some f →
      let k : Nat := tier.toNat * 2 ^ 48 + frame.toNat
      let n : Nat := if f.big then 2 ^ 25 else 2 ^ 16
      let inside (x : Nat) : Prop := k ≤ x ∧ x < k + n
      ∃ t, exec (.scrubDone tier frame) s = .next t ∧ t.scrub = s.scrub.erase f ∧ t.used = s.used.filter (fun y => y != f) ∧
        (∀ x, (inside x → t.byte x = 0) ∧ (¬ inside x → t.byte x = s.byte x)) ∧
        (∀ x, (x ∈ t.lost ↔ x ∈ s.lost ∧ ¬ inside (32 * x)) ∧ (x ∈ t.badSec ↔ x ∈ s.badSec ∧ ¬ inside (32 * x)) ∧
          (x ∈ t.badW ↔ x ∈ s.badW ∧ ¬ inside (4 * x))) ∧
        { t with mem := [], scrub := [], used := [], lost := [], badSec := [], badW := [] } =
          { s with mem := [], scrub := [], used := [], lost := [], badSec := [], badW := [] })) ∧
  -- replat
  (∀ (cxl : Bool) (unit : Nat) (live : List Nat) (s : State),
    let x : Tier := s.tier cxl
    let share (y : Tier) (u : Nat) : Nat := NMap.get 0 x.sizes u / (64 * (y.platN.filter (· == u)).length)
    live.Pairwise (· < ·) → (∀ u, u ∈ live ↔ u ∈ x.plat ∧ u ≠ unit) →
    (x.st ≠ .idle → exec (.unitFailing cxl unit) s = .next (s.setTier cxl { x with queued := x.queued ++ [unit] })) ∧
    (x.st = .idle → unit ∉ x.plat → exec (.unitFailing cxl unit) s = .next s) ∧
    (x.st = .idle → unit ∈ x.plat → cxl = false → live = [] → exec (.unitFailing cxl unit) s = .next (s.emit (.larkarNote 0 unit))) ∧
    (x.st = .idle → unit ∈ x.plat → (cxl = true ∨ live ≠ []) → ∃ y, exec (.unitFailing cxl unit) s = .next (s.setTier cxl y) ∧
      { y with st := .idle, platN := [], limit := 0, failing := none } = { x with st := .idle, platN := [], limit := 0, failing := none } ∧
      y.st = .evacuating ∧ y.failing = some unit ∧ (live = [] → y.platN = [] ∧ y.limit = 0) ∧
      (live ≠ [] → y.platN.length = x.plat.length ∧
        (∀ e, e < x.plat.length → y.platN.getD e 0 =
          if x.plat.getD e 0 = unit then live.getD (((x.plat.take e).filter (· == unit)).length % live.length) 0
          else x.plat.getD e 0) ∧
        (∀ u ∈ y.platN, y.limit ≤ share y u) ∧ ∃ u ∈ y.platN, y.limit = share y u))) ∧
  (∀ (cxl : Bool) (s : State),
    let x : Tier := s.tier cxl
    let left : Word := match x.failing with
      | some u => x.units &&& ~~~ (BitVec.ofNat 32 (2 ^ u))
      | none => x.units
    let fin (y : Tier) : Tier :=
      { y with
        st := .idle, plat := x.platN, platN := [], failing := none, swaths := 0, doneSw := [], inFlight := [], nextRead := 0 }
    (x.st ≠ .evacuating → exec (.evacuationDone cxl) s = .next s) ∧
    (x.st = .evacuating → x.platN ≠ [] → x.limit ≠ 0 → exec (.evacuationDone cxl) s = .next (s.setTier cxl
      { x with
        st := .moving, phase := (x.phase + 1) % 256, units := left, swaths := x.limit, doneSw := [], inFlight := [],
        nextRead := x.limit })) ∧
    (x.st = .evacuating → x.platN = [] → x.queued = [] →
      exec (.evacuationDone cxl) s = .next (s.setTier cxl (fin { x with units := left, limit := 0 }))) ∧
    (x.st = .evacuating → x.platN ≠ [] → x.limit = 0 → x.queued = [] →
      exec (.evacuationDone cxl) s = .next (s.setTier cxl (fin { x with units := left, phase := (x.phase + 1) % 256 }))) ∧
    (let may : Prop := x.st = .moving ∧ x.nextRead ≠ 0 ∧ ∀ y ∈ x.inFlight, y < x.nextRead + 7
      let sw : Nat := x.nextRead - 1
      let first : Nat := (if cxl then 2 else 0) * 2 ^ 48 + sw * 2 ^ 21
      let marked (y : Nat) : Prop := y ∈ s.badSec ∧ first ≤ 32 * y ∧ 32 * y < first + 2 ^ 21 ∧
        x.failing = some (platPlace x.plat (32 * y % 2 ^ 48)).1
      (¬ may ∨ s.stagingArea (sw % 8) = none → exec (.swathStart cxl) s = .next s) ∧
      (∀ at', may → s.stagingArea (sw % 8) = some at' → ∃ t, exec (.swathStart cxl) s = .next t ∧
        at' / 2 ^ 31 = sw % 8 ∧ at' % 2 ^ 31 + 2 ^ 21 ≤ 1664 * 2 ^ 20 ∧
        t.tier cxl = { x with inFlight := x.inFlight ++ [sw], nextRead := sw, stage := NMap.put x.stage sw at' } ∧
        t.tier (!cxl) = s.tier (!cxl) ∧ (∀ y, y ∈ t.lost ↔ y ∈ s.lost ∨ marked y) ∧ (∀ y, y ∈ t.badSec ↔ y ∈ s.badSec ∧ ¬ marked y) ∧
        { t with hbm := s.hbm, cxl := s.cxl, lost := [], badSec := [] } = { s with lost := [], badSec := [] })) ∧
    ∀ sw,
      let back : List Frame := match x.stage.find? (fun e => e.1 == sw) with
        | some e => (List.range 32).map (fun i => { tier := 1, addr := e.2 + 65536 * i, big := false })
        | none => []
      (x.st ≠ .moving ∨ sw ∉ x.inFlight → exec (.swathComplete cxl sw) s = .next s) ∧
      (x.st = .moving → sw ∈ x.inFlight → s.held = [] → (∃ y, y < x.swaths ∧ y ∉ x.doneSw ∧ y ≠ sw) →
        ∃ z, exec (.swathComplete cxl sw) s = .next ({ s with scrub := s.scrub ++ back }.setTier cxl z) ∧
          z.inFlight = x.inFlight.erase sw ∧ z.stage = NMap.drop x.stage sw ∧
          { z with swaths := 0, doneSw := [], inFlight := [], stage := [] } =
            { x with swaths := 0, doneSw := [], inFlight := [], stage := [] } ∧
          ∀ y, y < z.swaths ∧ y ∉ z.doneSw ↔ y < x.swaths ∧ y ∉ x.doneSw ∧ y ≠ sw) ∧
      (x.st = .moving → sw ∈ x.inFlight → s.held = [] → (∀ y, y < x.swaths → y ∈ x.doneSw ∨ y = sw) → x.queued = [] →
        exec (.swathComplete cxl sw) s =
          .next ({ s with scrub := s.scrub ++ back }.setTier cxl (fin { x with stage := NMap.drop x.stage sw })))) ∧
  -- parity walk
  (∀ (group : Nat) (s : State),
    let bad : List Nat := s.badW.filter (fun w => s.parityGroup w == group)
    exec (.parityWalk group) s =
      .next (if bad.length = 1 then { s with badW := s.badW.filter (fun w => !(s.parityGroup w == group)) }
        else if ∀ w ∈ bad, w ∈ s.walked then s
        else { s with walked := s.walked.filter (fun w => !(bad.contains w)) ++ bad }) ∧
    ∀ a b w k n : Nat, a ∈ bad → b ∈ bad → a ≠ b → a ∈ s.walked → k / 4 ≤ w → w ≤ (k + n - 1) / 4 → s.parityGroup w = group →
      s.meetWords k n = none)

/-- R402 to R404, R8, R413, R429, R436 and R411: Larkar's writes of partition entries, contracts and front-end registers, each refused
when it is illegal; what changes hands is zeroed; a migration clears the dirty bits and copies pages, stops a device, and installs
it at the target. That a write of a partition entry waits until what it changes is empty (assumption 42), and what clearing `DBG`
releases (assumption 43), are the model's readings. -/
def Obligations.TenantsConfigured : Prop :=
  -- partition entries
  (∀ (core : Nat) (own div : Dword) (s : State),
    let x : Core := s.core core
    let n : Nat := div.toNat % 8
    let owner (k : Nat) : BitVec 16 := BitVec.ofNat 16 (own.toNat / 2 ^ (16 * k))
    let was (k : Nat) : BitVec 16 := match k with
      | 0 => x.own0
      | 1 => x.own1
      | 2 => x.own2
      | _ => x.own3
    let legal : Prop := n ≤ 4 ∧ ∀ j k, j < 4 → k < 4 → bankSet n j = bankSet n k → owner j = owner k
    let moves (k : Nat) : Prop := k < 4 ∧ (n ≠ x.div ∨ owner k ≠ was k)
    let first (b : Nat × Nat) : Nat := 3 * 2 ^ 48 + core * 2 ^ 23 + b.1 * 2 ^ 17
    let inSet (b : Nat × Nat) (a : Nat) : Prop := first b ≤ a ∧ a < first b + b.2 * 2 ^ 17
    let busy : Prop := (∃ gw ∈ s.resident, gw / 64 = core ∧ moves (gw / 16 % 4)) ∨
      ∃ j ∈ s.jobs, (j.box = none ∧ j.gw / 64 = core ∧ moves (j.gw / 16 % 4)) ∨
        ∃ k, moves k ∧ (inSet (bankSet x.div k) j.sKey ∨ ∃ c, j.clo = some c ∧ inSet (bankSet x.div k) c.2.2)
    let zeroed (a : Nat) : Prop := ∃ k, moves k ∧ (inSet (bankSet n k) a ∨ inSet (bankSet x.div k) a)
    let tagged (e : Nat) : Prop := ∃ k, moves k ∧ ∃ b, (b = bankSet n k ∨ b = bankSet x.div k) ∧ 4 * b.1 ≤ e ∧ e < 4 * (b.1 + b.2)
    let parity (w : Nat) : Prop := zeroed (4 * w) ∨
      (∃ k, moves k ∧ ∃ b, (b = bankSet n k ∨ b = bankSet x.div k) ∧
        tagWord core (4 * b.1) ≤ w ∧ w < tagWord core (4 * (b.1 + b.2))) ∨
      ∃ k, moves k ∧ holdWord (16 * (4 * core + k)) 0 ≤ w ∧ w < holdWord (16 * (4 * core + k) + 16) 0
    (384 ≤ core → exec (.partitionWrite core own div) s = .next s) ∧
    (core < 384 → ¬ legal → exec (.partitionWrite core own div) s = .next (s.emit (.mailbox false))) ∧
    (core < 384 → legal → busy → exec (.partitionWrite core own div) s = .next s) ∧
    (core < 384 → legal → ¬ busy → s.saved = [] → s.savedJobs = [] → (∀ y ∈ s.launches, ∀ p ∈ y.parcels, p.imgOut = []) → x.div ≤ 4 →
      (s.badW = [] ∨ ∀ y ∈ s.launches, ∀ p ∈ y.parcels, p.imgFull = []) → ∃ t, exec (.partitionWrite core own div) s = .next t ∧
      { t.core core with tags := [] } =
        { x with own0 := owner 0, own1 := owner 1, own2 := owner 2, own3 := owner 3, div := n, tags := [] } ∧
      (∀ e, (tagged e → NMap.get 0 (t.core core).tags e = 0) ∧ (¬ tagged e → NMap.get 0 (t.core core).tags e = NMap.get 0 x.tags e)) ∧
      (∀ a, (zeroed a → t.byte a = 0) ∧ (¬ zeroed a → t.byte a = s.byte a)) ∧
      (∀ a, a ∈ t.badW ↔ a ∈ s.badW ∧ ¬ parity a) ∧
      (∀ q, (q / 4 = core ∧ moves (q % 4) → t.quad q = { s.quad q with work := Acc.init, commit := Acc.init, req := none }) ∧
        (¬ (q / 4 = core ∧ moves (q % 4)) → t.quad q = s.quad q)) ∧
      (∀ c, c ≠ core → t.core c = s.core c) ∧ t.outbox = s.outbox ++ [.mailbox true] ∧ t.warps = s.warps ∧
      t.contracts = s.contracts ∧ t.jobs = s.jobs)) ∧
  -- contracts
  (∀ (d : List Dword) (s : State),
    let w (k : Nat) : Dword := d.getD k 0
    let v : Nat := field (w 0) 63 48
    let old : Contract := s.contract v
    let made (c : Contract) : Contract :=
      { c with
        vdev := v, qres := BitVec.ofNat 16 (field (w 0) 47 32), bwh := field (w 0) 31 24, bwc := field (w 0) 23 16,
        fqlog := field (w 0) 15 12, dbg := (w 0).getLsbD 2, v := (w 0).getLsbD 0, ptroot := w 1, ttbase := w 2, fqbase := w 3,
        phndl := w 4, pbud := hi32 (w 5), wdog := lo32 (w 5), savea := w 6, qtab := w 7, slice := hi32 (w 8) }
    let share (f : Contract → Nat) : Nat :=
      (((s.contracts.map (·.2)).filter (fun x => x.v && x.vdev != v)).map f).sum + (if (made old).v then f (made old) else 0)
    let legal : Prop := v < 0xFFFF ∧ share (·.bwh) ≤ 240 ∧ share (·.bwc) ≤ 240
    let put : Contract := { made old with rights := old.rights && ((w 0).getLsbD 0 || hi32 (w 8) != 0) }
    -- a device without rotation that holds no rights yet begins its slice with the contract
    let begins : Prop := put.v = true ∧ put.stop = false ∧ put.slice = 0 ∧ put.rights = false ∧ s.leaving v = false
    (d.length ≠ 10 → exec (.contractWrite d) s = .next s) ∧
    (d.length = 10 → ¬ legal → exec (.contractWrite d) s = .next (s.emit (.mailbox false))) ∧
    (d.length = 10 → legal → (old.dbg = false ∨ (w 0).getLsbD 2 = true) →
      (¬ begins → exec (.contractWrite d) s = .next ((s.setContract v put).emit (.mailbox true))) ∧
      (begins → exec (.contractWrite d) s = .next (((s.setContract v put).beginSlice v).emit (.mailbox true)))) ∧
    (d.length = 10 → legal → old.dbg = true → (w 0).getLsbD 2 = false → s.saved = [] → s.savedJobs = [] →
      (∀ y ∈ s.launches, ∀ p ∈ y.parcels, p.imgOut = []) → ¬ begins → ∃ t, exec (.contractWrite d) s = .next t ∧
      { t.contract v with debug := [] } = { put with debug := [], attached := false } ∧
      (∀ k, NMap.get 0 (t.contract v).debug k = if 4 ≤ k ∧ k < 20 then 0 else NMap.get 0 old.debug k) ∧
      (∀ gw, t.warp gw = if gw ∈ s.resident ∧ (s.warp gw).vdev = v then { s.warp gw with halts := [] } else s.warp gw) ∧
      t.outbox = s.outbox ++ [.mailbox true] ∧ t.mem = s.mem) ∧
    -- the target of a migration
    (∀ (qs : List (Dword × Dword)) (pend : Word) (rec : List Dword),
      (d.length ≠ 10 ∨ rec.length ≠ 8 ∨ qs.length ≠ 32 → exec (.migrationResume d qs pend rec) s = .next s) ∧
      (d.length = 10 → rec.length = 8 → qs.length = 32 → ¬ legal →
        exec (.migrationResume d qs pend rec) s = .next (s.emit (.mailbox false))) ∧
      (d.length = 10 → rec.length = 8 → qs.length = 32 → legal → hi32 (w 8) ≠ 0 → old.dbg = false → ∃ y : State,
        exec (.migrationResume d qs pend rec) s = .next ((y.submit (recVdev rec == v) rec).emit (.mailbox true)) ∧
        y.contract v = { made Contract.init with fseqc := lo32 (w 8), lseql := hi32 (w 9), drop := lo32 (w 9), pending := pend } ∧
        (∀ c, c ≠ v → y.contract c = s.contract c) ∧ { y with contracts := [], mem := [] } = { s with contracts := [], mem := [] } ∧
        (∀ n, n < 32 → y.bytes ((w 7).toNat + 16 * n) 16 = dwordBytes [(qs.getD n (0, 0)).1, (qs.getD n (0, 0)).2]) ∧
        ∀ a, ¬ ((w 7).toNat ≤ a ∧ a < (w 7).toNat + 512) → y.byte a = s.byte a))) ∧
  -- front-end registers
  (∀ (v i j k p : Nat) (x : Dword) (s : State),
    let c : Contract := s.contract v
    let put (y : Contract) : Res := .next (s.setContract v y)
    let slot : Dword := if i < 2 then x else if i = 2 then x &&& 0xFFFFFC0000000000 else if i = 3 then 0
      else if i % 2 = 0 then x &&& 0xC1FFFFFFFFFFFFFF else x
    let bound : Dword := if k = 0 then x &&& 0xFFFFFFFFFFFF0003 else x
    (20 ≤ i → exec (.registerWrite v (.debug i) x) s = .next s) ∧
    (i < 20 → exec (.registerWrite v (.debug i) x) s = put { c with debug := NMap.set 0 c.debug i slot }) ∧
    (16 ≤ j ∨ 3 ≤ k → exec (.registerWrite v (.window j k) x) s = .next s) ∧
    (j < 16 → k < 3 → exec (.registerWrite v (.window j k) x) s = put { c with windows := NMap.set 0 c.windows (3 * j + k) bound }) ∧
    exec (.registerWrite v .etherPort x) s = put { c with ethPort := x } ∧
    exec (.registerWrite v .etherMac x) s = put { c with ethMac := x } ∧
    exec (.registerWrite v .etherTag x) s = put { c with ethTag := x } ∧
    (72 ≤ p → exec (.registerWrite v (.portPeer p) x) s = .next s) ∧
    (p < 72 → ∃ t, exec (.registerWrite v (.portPeer p) x) s = .next t ∧ { t with ports := [] } = { s with ports := [] } ∧
      ∀ y, NMap.get Port.init t.ports y =
        if y = p then { NMap.get Port.init s.ports p with peer := BitVec.ofNat 16 x.toNat } else NMap.get Port.init s.ports y)) ∧
  -- the source of a migration
  (∀ (v : Nat) (pages : List Dword) (s : State),
    let c : Contract := s.contract v
    ((s.contract v).v = false → exec (.precopyRound v pages) s = .next s) ∧
    (c.v = true → s.held = [] → ∃ t, exec (.precopyRound v pages) s = .next t ∧
      (∀ a ∈ s.leaves v, t.pteAt a.1 = s.pteAt a.1 &&& ~~~ ((1 : Dword) <<< 58)) ∧
      (∀ x, (∀ a ∈ s.leaves v, ¬ (a.1 ≤ x ∧ x < a.1 + 8)) → t.byte x = s.byte x) ∧
      t.tlbs = s.tlbs.filter (fun e => e.vdev != v) ∧ t.inval = s.inval.filter (fun i => i.vdev != v) ∧
      { t with mem := [], tlbs := [], inval := [], badW := [], outbox := [], scrub := [] } =
        { s with mem := [], tlbs := [], inval := [], badW := [], outbox := [], scrub := [] } ∧
      (∀ f ∈ s.scrub, f ∈ t.scrub) ∧ ((∀ i ∈ s.inval, i.vdev ≠ v) → t.scrub = s.scrub) ∧
      (pages = [] → t.outbox = s.outbox ∧ t.badW = s.badW) ∧
      (∀ i e b n big k, s.inval = [i] → i.vdev = v → i.old = some (e, b) → pteMig e = true → pages = [] →
        t.walk v i.page = .ok (n, big, k) → pteMig n = false → leafFrame e b ≠ leafFrame n big → leafFrame e b ∈ t.scrub) ∧
      ∀ va e big k, pages = [va] → t.walk v va = .ok (e, big, k) →
        let first : Nat := pteTier e * 2 ^ 48 + pteAddr e
        let n : Nat := if big then 2 ^ 25 else 2 ^ 16
        let bad : List Nat := ((s.lost ++ s.badSec).filter (fun x => decide (first ≤ 32 * x) && decide (32 * x < first + n))).eraseDups
        t.outbox = s.outbox ++ bad.map (fun x => .larkarNote 1 x) ++
          [.page v (pageOf va.toNat) (t.bytes first n) (bad.map (fun x => x - first / 32))]) ∧
    (c.v = false ∨ c.stop = true → exec (.migrationStop v) s = .next s) ∧
    (c.v = true → c.stop = false → ∃ t, exec (.migrationStop v) s = .next t ∧
      t.contract v = { c with stop := true, rights := false, moving := true } ∧ (∀ w, w ≠ v → t.contract w = s.contract w) ∧
      (∀ q, q ∉ s.quadsOf v → t.quad q = s.quad q) ∧
      (∀ q, q ∈ s.quadsOf v → ∃ r, t.quad q = { s.quad q with req := some r } ∧ r.kind = .stop ∧ r.vdev = v ∧
        r.ends ≤ (s.quad q).clock) ∧
      { t with contracts := [], quads := [], jobs := [], savedJobs := [], launches := [] } =
        { s with contracts := [], quads := [], jobs := [], savedJobs := [], launches := [] }))

/-- R410, R414 and R417: attaching, halting a group's warps, editing a halted warp's saved state, releasing a group, and releasing
threads that stopped at a breakpoint, each only while `DBG` is 1. An edit leaves the fields unchanged that only the hardware writes (R8).
That clearing `DBG` leaves a stopped thread on its record (assumption 43), and the forms that an edit takes (assumption 47), are the
model's readings. -/
def Obligations.DebuggerOrders : Prop :=
  ∀ (v : Nat) (l : Word) (g : Nat) (fseq : Word) (gw : Nat) (s : State),
    let c : Contract := s.contract v
    let mine (w : Warp) : Prop := w.vdev = v ∧ w.lseq = l ∧ w.inGroup g = true
    -- attach
    (c.v = true → c.dbg = true → exec (.debuggerAttach v) s = .next (s.setContract v { c with attached := true })) ∧
    (c.v = false ∨ c.dbg = false → exec (.debuggerAttach v) s = .next s) ∧
    -- halt and release of groups
    (c.dbg = false → exec (.haltGroup v l g) s = .next s ∧
      exec (.releaseGroup v l g) s = .next s) ∧
    (c.dbg = true → ∃ t, exec (.haltGroup v l g) s = .next t ∧
      (∀ k, (¬ (k ∈ s.resident ∧ mine (s.warp k)) → t.warp k = s.warp k) ∧
        (k ∈ s.resident ∧ mine (s.warp k) → { t.warp k with halts := [] } = { s.warp k with halts := [] } ∧
          ∀ h, h ∈ (t.warp k).halts ↔ h = g ∨ h ∈ (s.warp k).halts)) ∧
      t.saved.map (·.gw) = s.saved.map (·.gw) ∧
      (∀ x ∈ t.saved, mine x.warp → g ∈ x.warp.halts) ∧
      { t with warps := [], saved := [] } = { s with warps := [], saved := [] }) ∧
    (c.dbg = true → s.saved = [] → s.savedJobs = [] → (∀ y ∈ s.launches, ∀ p ∈ y.parcels, p.imgOut = []) →
      ∃ t, exec (.releaseGroup v l g) s = .next t ∧
      { t with warps := [] } = { s with warps := [] } ∧
      ∀ k, (¬ (k ∈ s.resident ∧ mine (s.warp k)) → t.warp k = s.warp k) ∧
        (k ∈ s.resident ∧ mine (s.warp k) →
          t.warp k = { s.warp k with halts := (s.warp k).halts.filter (fun x => x != g) })) ∧
    (∀ x : Saved, c.dbg = true → s.saved = [x] → mine x.warp → s.savedJobs = [] → s.badW = [] →
      (∀ y, s.launch? v l = some y → y.replay = false) →
      let core : Nat := coreOfQuad (quadOfWarp x.gw)
      s.owns v (quadOfWarp x.gw) = true → c.rights = true → (s.core core).survey = .none → (s.core core).service = true →
      ∃ t, exec (.releaseGroup v l g) s = .next t ∧
        ((∃ h ∈ x.warp.halts, h ≠ g) →
          t.saved = [{ x with warp := { x.warp with halts := x.warp.halts.filter (fun y => y != g) } }] ∧ t.resident = s.resident) ∧
        ((∀ h ∈ x.warp.halts, h = g) → t.saved = [] ∧ x.gw ∈ t.resident ∧
          { t.warp x.gw with threads := [] } = { x.warp with threads := [], halts := [] } ∧
          ∀ k, ((t.warp x.gw).thread k).pc = (x.warp.thread k).pc ∧ ((t.warp x.gw).thread k).stat = (x.warp.thread k).stat)) ∧
    -- edits
    (∀ e, (∀ x ∈ s.saved, x.gw = gw → x.warp.halts = [] ∨ (s.contract x.warp.vdev).dbg = false) →
      exec (.edit gw e) s = .next s) ∧
    (∀ (x : Saved) (k r : Nat) (a : Word) (y : Bool) (p : Dword), s.saved = [x] → x.gw = gw → x.warp.halts ≠ [] →
      (s.contract x.warp.vdev).dbg = true →
      let w : Warp := x.warp
      let edits (e : Edit) (n : Warp) : Prop :=
        exec (.edit gw e) s = .next ({ s with saved := [{ x with warp := n }] }.modLaunch w.vdev w.lseq
          (fun y => { y with edit := true, stale := true })) ∧ n.edit = true
      (k < 32 → r < w.hc → ∃ n, edits (.hold k r a) n ∧ { n with hold := [], edit := false } = { w with hold := [], edit := false } ∧
        ∀ i j, j < 256 → r < 256 → n.getHold i j = if i = k ∧ j = r then a else w.getHold i j) ∧
      (r < 64 → ∃ n, edits (.uniform r a) n ∧ { n with uni := [], edit := false } = { w with uni := [], edit := false } ∧
        ∀ j, n.getUni j = if j = r then a else w.getUni j) ∧
      (k < 32 → r < 7 → ∃ n, edits (.pred k r y) n ∧ { n with pred := [], edit := false } = { w with pred := [], edit := false } ∧
        ∀ i j, i < 32 → n.getPred i j = if i = k ∧ j = r then y else w.getPred i j) ∧
      (r < 16 → ∃ n, edits (.mask r a) n ∧ { n with rejoin := [], edit := false } = { w with rejoin := [], edit := false } ∧
        ∀ j, n.getJ j = if j = r then a else w.getJ j) ∧
      (k < 32 → canonical p = true → p.toNat % 4 = 0 → ∃ n, edits (.pc k p) n ∧
        { n with threads := [], edit := false } = { w with threads := [], edit := false } ∧
        ∀ i, n.thread i = if i = k then { w.thread k with pc := p, rpc := p } else w.thread i) ∧
      ∀ b, k < 32 → b.length = 128 → areaOk b = true → ∃ n, edits (.area k b) n ∧
        { n with threads := [], pred := [], edit := false } = { w with threads := [], pred := [], edit := false } ∧
        (∀ i, i ≠ k → n.thread i = w.thread i) ∧ (n.thread k).pc = canon (BitVec.ofNat 64 (leNat (b.take 8))) ∧
        (n.thread k).rpc = canon (BitVec.ofNat 64 (leNat ((b.drop 8).take 8))) ∧
        (n.thread k).live = (w.thread k).live ∧ (n.thread k).depth = (w.thread k).depth ∧
        (n.thread k).trap.fseq = (w.thread k).trap.fseq ∧ (n.thread k).trap.cause = (w.thread k).trap.cause ∧
        (n.thread k).trap.inTrap = (w.thread k).trap.inTrap ∧
        (∀ i j, i < 32 → j < 7 → n.getPred i j = if i = k then (b.getD 16 0).getLsbD j else w.getPred i j)) ∧
    -- edits of its job counter and its marks
    (∀ (x : Saved) (a : Word) (m : Mask), s.saved = [x] → x.gw = gw → x.warp.halts ≠ [] → (s.contract x.warp.vdev).dbg = true →
      let w : Warp := x.warp
      let with' (n : Warp) : State := { s with saved := [{ x with warp := n }] }.modLaunch w.vdev w.lseq
        (fun y => { y with edit := true, stale := true })
      exec (.edit gw (.jobs a)) s = .next (with' { w with jobs := a, edit := true }) ∧
      ∃ n, exec (.edit gw (.trig m)) s = .next ((with' n).checkTrigger w.vdev w.lseq w.pseq) ∧
        { n with threads := [] } = { w with threads := [], edit := true } ∧
        ∀ i, n.thread i = if hasLane w.live i then { w.thread i with trig := hasLane m i } else w.thread i) ∧
    -- edits of its parcel's extent, tags and accumulators: in the image, or in place while the image is to take them whole
    (∀ (x : Saved) (p : Parcel) (i off k n lq q : Nat) (b : Byte) (d : Dword), s.saved = [x] → x.gw = gw → x.warp.halts ≠ [] →
      (s.contract x.warp.vdev).dbg = true → s.parcel? x.warp.vdev x.warp.lseq x.warp.pseq = some p →
      let core : Nat := (p.place.getD i (0, 0)).1
      let whole : Prop := core ∈ p.imgExt ∨ ∃ y ∈ p.imgFull, y / 4 = core
      let edits (e : Edit) (t : State) (y : Parcel) : Prop :=
        exec (.edit gw e) s = .next t ∧ t.parcel? x.warp.vdev x.warp.lseq x.warp.pseq = some y ∧
        t.saved = [{ x with warp := { x.warp with edit := true } }]
      let saved (c : Nat) : Prop := s.coreSaved x.warp.vdev x.warp.lseq x.warp.pseq c = true
      (i < p.place.length → saved core → s.extentOf p core = some (k, n) → p.sbase ≤ off → off < p.sbase + n →
        let key : Nat := k + (off - p.sbase)
        ∃ t y, edits (.scratch i off b) t y ∧ { t with mem := [], launches := [], saved := [] } =
            { s with mem := [], launches := [], saved := [] } ∧
          (whole → y = p ∧ ∀ a, t.byte a = if a = key then b else s.byte a) ∧
          (¬ whole → t.mem = s.mem ∧ ∀ a, NMap.get 0 y.imgScr a = if a = key then b else NMap.get 0 p.imgScr a)) ∧
      (∀ tag, i < p.place.length → saved core → (s.tagsOf p core)[k]? = some tag →
        ∃ t, edits (.tag i k d) t p ∧ t.cores = s.cores) ∧
      (∀ f, p.quadsAt.find? (fun e => e.1 == lq) = some (lq, q) → q ∈ p.accQuads → saved (q / 4) → k < 16384 → 3 ≤ f → f < 6 →
        ∃ t y, edits (.acc lq f k d) t y ∧ (q ∈ p.imgFull → y = p ∧ (t.quad q).work = s.committed q) ∧
          (q ∉ p.imgFull → t.quads = s.quads ∧ NMap.get Acc.init y.imgAcc q = NMap.get Acc.init p.imgAcc q)) ∧
      (p.quadsAt.find? (fun e => e.1 == lq) = some (lq, q) → q ∈ p.accQuads → saved (q / 4) → k < 16384 → ∃ t y,
        edits (.acc lq 0 k d) t y ∧
          (q ∈ p.imgFull → y = p ∧ NMap.get 0 (t.quad q).work.el k = lo32 d) ∧
          (q ∉ p.imgFull → t.quads = s.quads ∧ NMap.get 0 (NMap.get Acc.init y.imgAcc q).el k = lo32 d))) ∧
    -- stopped threads
    let stopped (k i : Nat) : Prop := k ∈ s.resident ∧ (s.warp k).vdev = v ∧ hasLane (s.warp k).live i = true ∧
        ((s.warp k).thread i).stat = .parked fseq true
    ((∀ k i, ¬ stopped k i) → exec (.releaseThread v fseq) s = .next s) ∧
    ((∃ k i, stopped k i) → ∃ t, exec (.releaseThread v fseq) s = .next t ∧
        t.larkarQ = s.larkarQ.filter (fun y => !(y.1 == v && recFseq y.2 == fseq)) ∧
        { t with warps := [], larkarQ := [] } = { s with warps := [], larkarQ := [] } ∧
        (∀ k, { t.warp k with threads := [] } = { s.warp k with threads := [] }) ∧
        ∀ k i, (stopped k i → (t.warp k).thread i =
            { (s.warp k).thread i with stat := .ready, bpPass := ((s.warp k).thread i).bpStop, bpStop := none }) ∧
          (¬ stopped k i → (t.warp k).thread i = (s.warp k).thread i))

/-- R428, R430, R378, R406, R433 and R437: a flit is delivered in order or retried; a failed port works no more, and what has not been
acknowledged on it goes out on another port of its peer; a flit that fails its check there goes out again with those after it; a peer's
request is answered; the host writes and reads device memory and its kick pages; Larkar moves bytes between storage and memory, and
reports once they are performed. Blocks and the report (assumption 45), the flits of a message and a port's die (assumptions 51 and 57),
are the model's readings. -/
def Obligations.FabricAndHostAccess : Prop :=
  -- ports
  (∀ (port : Nat) (seq : BitVec 24) (good : Bool) (s : State),
    let p : Port := NMap.get Port.init s.ports port
    let put (x : Port) : State := { s with ports := NMap.set Port.init s.ports port x }
    (72 ≤ port ∨ p.ok = false → exec (.flitReceived port seq good) s = .next s) ∧
    (port < 72 → p.ok = true →
      (good = true ∧ seq = p.seq → exec (.flitReceived port seq good) s = .next (put { p with seq := p.seq + 1 })) ∧
      (¬ (good = true ∧ seq = p.seq) → exec (.flitReceived port seq good) s = .next (s.emit (.retry port p.seq)))) ∧
    (port < 72 → (∀ j ∈ s.jobs ++ s.savedJobs, ∀ f ∈ j.flits, f.1 ≠ port) →
      exec (.portFailure port) s = .next (put { p with ok := false })) ∧
    (∀ (j : Job) (x : BitVec 24) (k : Nat), port < 72 → s.jobs = [j] → s.savedJobs = [] → j.flits = [(port, x)] → p.peer ≠ 0xFFFF →
      (put { p with ok := false }).peerPort p.peer = some k →
      exec (.portFailure port) s = .next { ({ put { p with ok := false } with freeCtr := s.freeCtr + 1 } : State).sendFlit k with
        jobs := [{ j with flits := [(k, (NMap.get Port.init (put { p with ok := false }).ports k).tx)] }] }) ∧
    (72 ≤ port → exec (.portFailure port) s = .next s) ∧
    -- the peer's acknowledgements and requests for a retry
    (
      let rest (j : Job) : Job := { j with flits := j.flits.filter (fun f => !(f.1 == port && decide ((seq - f.2).toNat < 2 ^ 23))) }
      Input.run (.flitAck port seq) s = .next { s with jobs := s.jobs.map rest, savedJobs := s.savedJobs.map rest }) ∧
    (p.ok = true → (p.tx - seq).toNat < 2 ^ 23 →
      let again : List Out := (List.range (p.tx - seq).toNat).map (fun i => .flit port (seq + BitVec.ofNat 24 i))
      Input.run (.flitRetry port seq) s = .next { s with outbox := s.outbox ++ again }) ∧
    -- what goes out takes the port's next number
    s.sendFlit port = (put { p with tx := p.tx + 1 }).emit (.flit port p.tx) ∧
    ∀ peer d, (∀ k, s.peerPort peer = some k → (NMap.get Port.init s.ports k).ok = true → k ∈ s.peerPorts peer) ∧
      ∃ fl, (s.answerPeer peer d).outbox = s.outbox ++ fl ++ [.remoteAnswer peer d] ∧ ∀ o ∈ fl, ∃ k n, o = Out.flit k n) ∧
  -- requests of peers
  (∀ (peer : BitVec 16) (v : Nat) (va : Dword) (n : Nat) (data : List Byte) (op : AtomOp) (w : Width) (s u : State) (k : Nat)
      (x c : Dword) (port : Nat),
    let fits (m : Nat) : Prop := 0 < m ∧ va.toNat % 128 + m ≤ 128
    let m : Nat := atomBytes w
    let die : Nat := if port < 36 then 8 else 9
    let free (kind : RemoteKind) : Prop := s.remoteWaits peer v kind va = false
    let at' (kind : RemoteKind) : Prop := free kind ∧ s.peerPort peer = some port ∧
      s.translate die v va (kind != .load) false = (u, .ok k false) ∧ u.clear
    (∀ kind, s.remoteWaits peer v kind va = true → exec (.remoteRequest peer v kind va n data) s =
      .next { s with extQ := s.extQ ++ [.remoteRequest peer v kind va n data] }) ∧
    (∀ kind, free kind → s.peerPort peer = none → exec (.remoteRequest peer v kind va n data) s = .next s) ∧
    (∀ kind, free kind → (kind = .load ∧ ¬ fits n) ∨ (kind = .store ∧ ¬ fits data.length) ∨ (kind = .atom op w ∧ ¬ fits m) →
      exec (.remoteRequest peer v kind va n data) s = .next s) ∧
    (fits n → at' .load →
      exec (.remoteRequest peer v .load va n data) s = .next (u.answerPeer peer (some (u.bytes k n)))) ∧
    (fits data.length → at' .store → ∃ t y, exec (.remoteRequest peer v .store va n data) s = .next t ∧ u.StoredAt y k data ∧
      t = y.answerPeer peer (some [])) ∧
    (fits m → at' (.atom op w) → data = leBytes m x.toNat ++ leBytes m c.toNat →
      exec (.remoteRequest peer v (.atom op w) va n data) s =
        .next ((u.rmw k op w (trunc w x, trunc w c)).answerPeer peer (some (u.bytes k m)))) ∧
    (∀ f, fits n → free .load → s.peerPort peer = some port → s.translate die v va false false = (u, .fault f) →
      exec (.remoteRequest peer v .load va n data) s = .next (u.answerPeer peer none))) ∧
  -- the host and storage
  (∀ (v : Nat) (va : Dword) (n : Nat) (data : List Byte) (port block : Nat) (s u : State) (k : Nat),
    let unit (m : Nat) : Prop := 0 < m ∧ va.toNat % 64 + m ≤ 64
    -- the host's accesses are translated on I/O die B, storage transfers on die A
    let at' (die : Nat) (write : Bool) : Prop := s.translate die v va write false = (u, .ok k false) ∧ u.clear
    let up : Prop := s.hostWaits = false ∧ s.pcieUp = true
    let key (i : Nat) : Nat := port * 2 ^ 80 + block * Config.nvmeBlock port + i
    let stored : List Byte := (List.range n).map (fun i => NMap.get 0 s.nvme (key i))
    (s.hostWaits = true → exec (.hostWrite v va data) s = .next { s with extQ := s.extQ ++ [.hostWrite v va data] } ∧
      ∀ page, exec (.hostRead v page va n) s = .next { s with extQ := s.extQ ++ [.hostRead v page va n] }) ∧
    (s.hostWaits = false → s.pcieUp = false → exec (.hostWrite v va data) s = .next s ∧
      ∀ page, exec (.hostRead v page va n) s = .next s) ∧
    (up → unit data.length → at' 9 true → ∃ t, exec (.hostWrite v va data) s = .next t ∧ u.StoredAt t k data) ∧
    (up → ∀ f, unit data.length → s.translate 9 v va true false = (u, .fault f) →
      exec (.hostWrite v va data) s = .next u) ∧
    (up → unit n → at' 9 false →
      exec (.hostRead v false va n) s = .next (u.emit (.hostData (some (u.bytes k n))))) ∧
    (up → unit n → ∀ r, s.translate 9 v va false false = (u, .ok k r) → k < 3 * 2 ^ 48 → k / 32 ∈ u.lost → ∃ t,
      exec (.hostRead v false va n) s = .next t ∧ t.outbox = u.outbox ++ [.larkarNote 1 (k / 32), .hostData none] ∧ t.mem = u.mem) ∧
    (up →
      let word : Nat := if va.toNat % 8 = 0 ∧ va.toNat < 256 then s.qHead v (va.toNat / 8) * 65536 + s.qTail v (va.toNat / 8)
        else if va.toNat = 256 then (s.contract v).pending.toNat else 0
      exec (.hostRead v true va n) s =
        .next (s.emit (.hostData (some (leBytes n (if n = 4 ∨ n = 8 then word else 0)))))) ∧
    (s.pcieUp = true → ∀ off size x, Input.run (.kickWrite v off size x) s =
      if (size = 4 ∨ size = 8) ∧ off % 8 = 0 ∧ off < 256 then exec (.kick v (off / 8) (BitVec.ofNat 16 x.toNat)) s else .next s) ∧
    (2 ≤ port → ∀ d, exec (.nvmeTransfer port d block v va n) s = .next s) ∧
    (port < 2 → unit n → at' 8 true → ∃ t y, exec (.nvmeTransfer port true block v va n) s = .next t ∧ u.StoredAt y k stored ∧
      t = y.emit (.mailbox true)) ∧
    (port < 2 → unit n → s.held = [] → s.translate 8 v va true false = (u, .ok k true) → ∃ t h,
      exec (.nvmeTransfer port true block v va n) s = .next t ∧ t.held = [h] ∧ h.data = stored ∧ h.va = va ∧
      t.extQ = s.extQ ++ [.nvmeReport [h.id] true] ∧ t.outbox = s.outbox ∧ t.mem = u.mem) ∧
    (port < 2 → unit n → at' 8 false → ∃ t, exec (.nvmeTransfer port false block v va n) s = .next t ∧
      { t with nvme := [], outbox := [] } = { u with nvme := [], outbox := [] } ∧ t.outbox = u.outbox ++ [.mailbox true] ∧
      ∀ x, NMap.get 0 t.nvme x = if key 0 ≤ x ∧ x < key 0 + n then u.byte (k + (x - key 0)) else NMap.get 0 s.nvme x))

/-- R438 to R442: boot measures and verifies its stages; the owner's Larkar configuration extends its registers; attestation is answered,
once Larkar runs; ownership changes hands on a signature, with all device memory zeroed and a boot that follows; the power limit, coolant
and junction temperature act on the part. The order that SPDM requests must keep is the model's choice (assumption 17), as are the free
encoding of its answers (assumption 16), what the owner's installation checks (assumption 15), and the moments at which power acts
(assumption 46). -/
def Obligations.BootOwnershipAndPower : Prop :=
  ∀ s : State,
    let msmt (y : State) (i : Nat) : List Byte := NMap.get (List.replicate 32 0) y.msmt i
    let all' : List Byte := ((List.range 8).map (msmt s)).flatten
    let answer (y : State) (k : Nat) (d : List Byte) : State := { y with outbox := y.outbox ++ [.spdm (Config.spdmAnswer k d)] }
    -- reset and boot
    (∀ images, ∃ t, exec (.powerOnReset images) s = .next t ∧
      { t with msmt := [], booted := false, bootSrc := 0 } =
        { State.reset with
          tick := s.tick, sched := s.sched, outbox := s.outbox, nvme := s.nvme, ownerKey := s.ownerKey, owned := s.owned,
          bootImgs := images } ∧
      (∀ i, 4 ≤ i → msmt t i = List.replicate 32 0) ∧
      let verifies (b : BootImage) : Bool := Config.sm2Verify Config.malxelKey (Config.sm3 b.image) b.malxelSig &&
        (s.ownerKey.isEmpty || Config.sm2Verify s.ownerKey (Config.sm3 b.image) b.ownerSig)
      let z : List Byte := List.replicate 32 0
      msmt t 3 = Config.sm3 (z ++ Config.sm3 s.ownerKey) ∧
      ((∀ b ∈ images.take 3, verifies b = false) → t.booted = false ∧ msmt t 0 = z) ∧
      (∀ n b, n < 3 → images[n]? = some b → verifies b = true → (∀ c ∈ images.take n, verifies c = false) →
        t.bootSrc = n ∧ msmt t 0 = Config.sm3 (z ++ Config.sm3 (b.image ++ [BitVec.ofNat 8 n])) ∧
        (t.booted = true ↔ ∃ c d, images[3]? = some c ∧ images[4]? = some d ∧ verifies c = true ∧ verifies d = true) ∧
        ∀ c d, images[3]? = some c → images[4]? = some d → verifies c = true → verifies d = true →
          msmt t 1 = Config.sm3 (z ++ Config.sm3 c.image) ∧ msmt t 2 = Config.sm3 (z ++ Config.sm3 d.image))) ∧
    (s.booted = true → ∀ (i : BitVec 2) (d : List Byte), ∃ t, Input.run (.larkarMeasure i d) s = .next t ∧
      msmt t (4 + i.toNat) = Config.sm3 (msmt s (4 + i.toNat) ++ d) ∧ (∀ k, k ≠ 4 + i.toNat → msmt t k = msmt s k) ∧
      { t with msmt := [] } = { s with msmt := [] }) ∧
    -- attestation
    (s.booted = false → ∀ i ∈ ([.getVersion, .getCapabilities, .negotiateAlgorithms true true, .getDigests, .getCertificate 0,
      .challenge [], .getMeasurements none] : List Instr), exec i s = .next s) ∧
    (s.booted = true →
      exec .getVersion s = .next (answer { s with spdmVersion := true, spdmCaps := false, spdmAlgs := false } 0 [0x13]) ∧
      (s.spdmVersion = true → exec .getCapabilities s = .next (answer { s with spdmCaps := true } 1 [])) ∧
      (s.spdmVersion = false → exec .getCapabilities s = .next (answer s 7 [])) ∧
      (s.spdmCaps = true → exec (.negotiateAlgorithms true true) s = .next (answer { s with spdmAlgs := true } 2 [])) ∧
      (∀ a b, a = false ∨ b = false ∨ s.spdmCaps = false → exec (.negotiateAlgorithms a b) s = .next (answer s 7 [])) ∧
      (s.spdmAlgs = true →
        exec .getDigests s = .next (answer s 3 (Config.sm3 (Config.certificate 0))) ∧
        (∀ k, exec (.getCertificate k) s = .next (answer s 4 (Config.certificate k))) ∧
        (∀ nonce, exec (.challenge nonce) s = .next (answer s 5 (Config.spdmSign (nonce ++ all')))) ∧
        (∀ i : BitVec 3, exec (.getMeasurements (some i)) s = .next (answer s 6 (msmt s i.toNat))) ∧
        exec (.getMeasurements none) s = .next (answer s 6 all')) ∧
      (s.spdmAlgs = false → ∀ i ∈ ([.getDigests, .getCertificate 0, .challenge [], .getMeasurements none] : List Instr),
        exec i s = .next (answer s 7 []))) ∧
    -- ownership
    (∀ key sig,
      (s.owned = false ∨ Config.sm2Verify s.ownerKey (Config.sm3 key) sig = true → ∃ t, exec (.ownerInstall key sig) s = .next t ∧
        { t with msmt := [], outbox := [] } = { s with msmt := [], outbox := [], ownerKey := key, owned := true } ∧
        t.outbox = s.outbox ++ [.mailbox true] ∧ msmt t 3 = Config.sm3 (msmt s 3 ++ Config.sm3 key) ∧
        ∀ i, i ≠ 3 → msmt t i = msmt s i) ∧
      (s.owned = true → Config.sm2Verify s.ownerKey (Config.sm3 key) sig = false →
        exec (.ownerInstall key sig) s = .next (s.emit (.mailbox false)))) ∧
    (∀ sig, let good : Prop := s.owned = true ∧ Config.sm2Verify s.ownerKey (Config.sm3 Config.transferCommand) sig = true
      let idle : Prop := ∀ x ∈ s.launches, x.doneW = true ∨ x.endedW = true
      (¬ good → exec (.ownershipTransfer sig) s = .next (s.emit (.mailbox false))) ∧
      (good → ¬ idle → exec (.ownershipTransfer sig) s = .next ({ s with transfer := true }.emit (.mailbox true))) ∧
      (good → idle → ∃ t, exec (.ownershipTransfer sig) s = .next t ∧ t.mem = [] ∧ t.ownerKey = [] ∧ t.owned = false ∧
        t.transfer = false ∧ t.launches = [] ∧ t.contracts = [] ∧ t.outbox = s.outbox ++ [.mailbox true] ∧
        msmt t 3 = Config.sm3 (List.replicate 32 0 ++ Config.sm3 []) ∧ t.bootImgs = s.bootImgs ∧
        (s.bootImgs = [] → t.booted = false))) ∧
    -- power and cooling
    (∀ w, (w < 1200 ∨ 2600 < w → exec (.setPwrlim w) s = .next (s.emit (.mailbox false))) ∧
      (1200 ≤ w → w ≤ 2600 → s.pwrlim ≤ w →
        exec (.setPwrlim w) s = .next ({ s with pwrlim := w, pwrNext := none, pwrOld := [] }.emit (.mailbox true))) ∧
      (1200 ≤ w → w < s.pwrlim → w ≤ 2600 →
        let busy (x : Launch) : Bool := !(x.doneW || x.endedW)
        ((∃ x ∈ s.launches, busy x = true) → exec (.setPwrlim w) s = .next ({ s with
            pwrNext := some w, pwrOld := (s.launches.filter busy).map (fun x : Launch => (x.vdev, x.lseq)) }.emit (.mailbox true))) ∧
        ((∀ x ∈ s.launches, busy x = false) →
          exec (.setPwrlim w) s = .next ({ s with pwrlim := w, pwrNext := none, pwrOld := [] }.emit (.mailbox true))))) ∧
    (∀ c l, ∃ t, exec (.coolantFault c l) s = .next t ∧
      { t with coolantBad := false, coolantLog := [] } = { s with coolantBad := false, coolantLog := [] } ∧
      (t.coolantBad = true ↔ 40000 < c ∨ l < 4000) ∧ t.coolantLog = (s.round, t.coolantBad) :: s.coolantLog) ∧
    (∀ c, (c < 115 → exec (.junctionOvertemp c) s = .next s) ∧
      (115 ≤ c → ∃ t, exec (.junctionOvertemp c) s = .next t ∧ t = { s with stopped := true, pcieUp := false } ∧
        (t.sched = [] → step t = .fault .partStopped))) ∧
    ∀ q on, exec (.powerThrottle q on) s = .next (s.setQuad q
      { s.quad q with throttled := on, slowLog := (s.round, on) :: (s.quad q).slowLog })

/-! ### Words, steps, reset and the invariant -/

/-- R47, R50, R53, R67 and R68 with worked words of the spec: `FADD.c n0, k1, h2` and `FADD n0, k1, h2` (spec/03), `MOV.n32 h5` with a
literal (spec/03), `?p2 FFMA.rdn` (R76), `CMP.lt.i32.and` (R108), `TRAP 5` (R128), `NOP` (R227), `MMA.bf16.m128n128` (spec/12); the length
code `0b01` is no instruction; all-zero and all-ones words fall on traps. -/
def Obligations.WorkedWordsDecode : Prop :=
  let h : Hdr := { guard := { neg := false, idx := 7 }, long := false, lit := 0 }
  decode [0x02504080] = .ok (.faddC (.near 0) (.latch 0) (.hold 2)) ∧
  decode [0x1D000016, 0x00000910] = .ok (.fadd h .rne (.reg (.near 0) false) (.latch 0) (.hold 2)) ∧
  decode [0x1C05000F, 0x000003FF, 0x3F800000] =
    .ok (.mov { h with long := true, lit := 0x3F800000 } .w32 (.reg (.hold 5) false) .lit) ∧
  decode [0x1C05000E, 0x000003FF] = .error .illegalOperand ∧
  decode [0x0804001A, 0xAFE50C05] =
    .ok (.ffma { h with guard := { neg := false, idx := 2 } } .rdn (.reg (.hold 4) false) (.hold 5) (.uniform 3) (.imm 0xFE)) ∧
  decode [0x1C010812, 0x02B00800] = .ok (.cmp h .lt .w32 1 (.and true 3) (.hold 0) (.hold 2)) ∧
  decode [0x1C001842, 0x00000205] = .ok (.trap h (.imm 5)) ∧
  decode [0x1C001CE2, 0x00000000] = .ok (.nop h) ∧
  decode [0x1C0068C2, 0x80052548] = .ok (.mma h .bf16 .d128 .d128 false .quad (.uniform 8) (.uniform 9)) ∧
  decode [0x1C0C0002, 0] = .error .illegalOpcode ∧ decode [0] = .error .illegalOpcode ∧
  (∀ w1 w2, decode [0xFFFFFFFF, w1, w2] = .error .illegalOpcode) ∧
  ∀ w0 ws, w0.toNat % 4 = 1 → decode (w0 :: ws) = .error .illegalLength

/-- R47, R48, R50 to R57 and R67 to R70: a well-formed instruction decodes from its encoding, whatever words follow, with every operand
and selector at every value that its encoding admits; the encoding is as long as its first word announces. -/
def Obligations.EncodingsDecodeBack : Prop :=
  ∀ (i : Instr) (ws rest : List Word), i.wf = true → encode i = some ws →
    decode (ws ++ rest) = .ok i ∧ lengthOf (ws.getD 0 0) = some ws.length

/-- R31, R47, R58, R59, R159, R161, R163 and R414: in a quadrant's clock in which no input or event is due, the set chosen issues: its
words are decoded, and the step is `exec` of the instruction in the state in which the issue has begun, or the trap of words that
are no instruction. The issue names the set; the quadrant's clock has moved on; a set other than the last loses its latches;
threads that may pass a breakpoint there have passed it. When `exec` leaves the set waiting at its instruction, it has not issued,
and the clock goes to the next set. -/
def Obligations.StepIssuesDecodedInstruction : Prop :=
  ∀ (s : State) (q k : Nat) (m : Mask) (pc : Dword) (ws : List Word),
    let u : State := ({ s with tick := s.tick + 1 }.catchUp q).noteSample q
    let gw : Nat := 16 * q + k
    let y : State := u.beginIssue q k m pc ws.length
    let x : Quad := u.quad q
    s.stopped = false → (∀ e ∈ s.sched, s.tick < e.1) → s.turn = q + 1 → x.throttled = false → u.coolantBad = false → u.badW = [] →
    u.firstOf (u.quadEvents q) = none → u.fetching q = none → u.choose q = some (k, m, pc) →
    u.fetch (q / 4) (u.warp gw).vdev pc = .words ws →
    (u.breakLanes gw m pc = 0 →
      (∀ i, decode ws = .ok i →
        (∀ w, exec i y = .next w → w.stillWaits gw m = false → step s = .next (w.passBreaks gw m pc)) ∧
        (∀ w, exec i y = .next w → w.stillWaits gw m = false → (∀ l, ((w.warp gw).thread l).bpPass ≠ some pc) →
          step s = exec i y) ∧
        (∀ w, exec i y = .next w → w.stillWaits gw m = true → step s = (w.keepWait u q k).issueFree q 128 [(k, m, pc)]) ∧
        ((∀ w, exec i y ≠ .next w) → step s = exec i y)) ∧
      ∀ b, decode ws = .error b → step s = .next (y.take (Exc.of
        (match b with
         | .illegalLength => 0x01
         | .illegalOpcode => 0x02
         | .reservedField => 0x03
         | .illegalOperand => 0x04) m))) ∧
    (u.breakLanes gw m pc ≠ 0 → step s = .next (y.take (Exc.of 0x21 (u.breakLanes gw m pc)))) ∧
    y.iss = { quad := q, slot := k, mask := m, pc := pc, words := ws.length, clk := x.clock } ∧
    { y.quad q with outSnap := none } =
      { x with clock := x.clock + 1, seen := u.round + 1, cur := some (k, m, pc), fetch := none, issued := true, outSnap := none } ∧
    (∀ p, p ≠ q → y.quad p = u.quad p) ∧ (∀ g, g ≠ gw → y.warp g = u.warp g) ∧
    { y.warp gw with threads := [], latchV := [], last := none } = { u.warp gw with threads := [], latchV := [], last := none } ∧
    (y.warp gw).last = some x.clock ∧
    (∀ l, (y.warp gw).thread l = if hasLane m l then
        { (u.warp gw).thread l with stat := .ready } else (u.warp gw).thread l) ∧
    (∀ j, j < 4 → (y.warp gw).latchValid j =
      if (∃ p, x.cur = some (k, m, p)) then (u.warp gw).latchValid j else (u.warp gw).latchValid j &&& ~~~ m) ∧
    y.mem = s.mem ∧ y.flights = s.flights ∧ y.jobs = s.jobs ∧ y.contracts = s.contracts ∧ y.cores = s.cores

/-- R10, R159, R382, R392, R393, R402, R404, R439 and R442: reset. Clocks, counters and measurements are 0, no contract exists, no
quadrant is owned, no warp or launch stands, both tiers are idle under phase 0 with HBM4E's table naming stack e mod 16, and the
memory lists nothing. What unwritten memory reads as (assumption 1) and the registers without a stated reset value are the
model's choice. -/
def Obligations.ResetLeaves : Prop :=
  let s : State := State.reset
  s.inv ∧ s.mem = [] ∧ (∀ k, s.byte k = 0) ∧ s.resident = [] ∧ s.launches = [] ∧ s.jobs = [] ∧ s.flights = [] ∧
  s.saved = [] ∧ s.outbox = [] ∧ s.stopped = false ∧ s.pcieUp = true ∧ s.booted = false ∧ s.pclk = 0 ∧
  (∀ q, (s.quad q).clock = 0 ∧ (s.quad q).req = none ∧ (s.quad q).sampler = Sampler.off ∧ s.owner q = 0xFFFF) ∧
  (∀ c, (s.core c).div = 4 ∧ (s.core c).service = true ∧ ∀ e, NMap.get 0 (s.core c).tags e = 0) ∧
  (∀ v, (s.contract v).v = false ∧ (s.contract v).rights = false ∧ (s.contract v).fseqc = 0 ∧ (s.contract v).lseql = 0) ∧
  (∀ i, s.measure i = List.replicate 32 0) ∧
  s.hbm.st = .idle ∧ s.hbm.phase = 0 ∧ s.hbm.limit = 366210 ∧ s.hbm.plat.length = 256 ∧ (∀ e, e < 256 → s.hbm.plat.getD e 16 = e % 16) ∧
  (∀ u, u < 16 → NMap.get 0 s.hbm.sizes u * 128 = 48 * 10 ^ 9) ∧ s.cxl.st = .idle ∧ s.cxl.phase = 0 ∧
  ∃ t, step s = .next t

/-- The memory keeps its one canonical form: keys strictly rising, and no entry that reads as an unlisted byte does. Every step from
every state in that form ends in it. -/
def Obligations.StepsKeepMemoryCanonical : Prop :=
  ∀ s t : State, s.inv → step s = .next t → t.inv
end

