-- ==== Sys2Proof/Laws/NMap.lean ====
section
/-! SUPPORT. Sparse maps: reading after writing, and that every operation keeps the canonical form. -/

namespace Sys2Proof.Machine

variable {α : Type}

@[simp] theorem NMap.get_nil (d : α) (k : Nat) : NMap.get d [] k = d := rfl

theorem NMap.get_put_self (d : α) (m : NMap α) (k : Nat) (v : α) : NMap.get d (NMap.put m k v) k = v := by
  induction m with
  | nil => simp [NMap.put, NMap.get]
  | cons e m ih =>
    simp only [NMap.put]
    split
    · simp [NMap.get]
    · split
      · simp [NMap.get]
      · simp [NMap.get, *]

theorem NMap.get_put_other (d : α) (m : NMap α) {k j : Nat} (v : α) (h : j ≠ k) :
    NMap.get d (NMap.put m k v) j = NMap.get d m j := by
  induction m with
  | nil => simp [NMap.put, NMap.get, h]
  | cons e m ih =>
    simp only [NMap.put]
    split
    · simp [NMap.get, h]
    · split
      · rename_i h1 h2
        subst h2
        simp [NMap.get, h]
      · simp only [NMap.get, ih]

theorem NMap.get_filter (d : α) (m : NMap α) (p : Nat → Bool) (k : Nat) :
    NMap.get d (m.filter (fun e => p e.1)) k = if p k then NMap.get d m k else d := by
  induction m with
  | nil => simp
  | cons e m ih =>
    by_cases h : p e.1
    · by_cases hk : k = e.1
      · subst hk; simp [NMap.get, h]
      · simp [NMap.get, h, hk, ih]
    · by_cases hk : k = e.1
      · subst hk; simp [h, ih]
      · simp [NMap.get, h, hk, ih]

theorem NMap.get_drop_self (d : α) (m : NMap α) (k : Nat) : NMap.get d (NMap.drop m k) k = d := by
  have h := NMap.get_filter d m (fun x => !(x == k)) k
  simpa [NMap.drop] using h

theorem NMap.get_drop_other (d : α) (m : NMap α) {k j : Nat} (h : j ≠ k) :
    NMap.get d (NMap.drop m k) j = NMap.get d m j := by
  have h' := NMap.get_filter d m (fun x => !(x == k)) j
  simpa [NMap.drop, h] using h'

/-- A write reads back. -/
@[simp] theorem NMap.get_set_self [DecidableEq α] (d : α) (m : NMap α) (k : Nat) (v : α) :
    NMap.get d (NMap.set d m k v) k = v := by
  unfold NMap.set
  split
  · rename_i h; rw [NMap.get_drop_self, h]
  · exact NMap.get_put_self d m k v

/-- A write leaves every other key alone. -/
theorem NMap.get_set_other [DecidableEq α] (d : α) (m : NMap α) {k j : Nat} (v : α) (h : j ≠ k) :
    NMap.get d (NMap.set d m k v) j = NMap.get d m j := by
  unfold NMap.set
  split
  · exact NMap.get_drop_other d m h
  · exact NMap.get_put_other d m v h

theorem NMap.get_set [DecidableEq α] (d : α) (m : NMap α) (k j : Nat) (v : α) :
    NMap.get d (NMap.set d m k v) j = if j = k then v else NMap.get d m j := by
  by_cases h : j = k
  · subst h; simp
  · simp [h, NMap.get_set_other]

/-- A cleared range reads as the default, every other key as before. -/
theorem NMap.get_clear (d : α) (m : NMap α) (lo n k : Nat) :
    NMap.get d (NMap.clear m lo n) k = if lo ≤ k ∧ k < lo + n then d else NMap.get d m k := by
  have h := NMap.get_filter d m (fun x => !(decide (lo ≤ x) && decide (x < lo + n))) k
  rw [NMap.clear, h]
  by_cases h1 : lo ≤ k <;> by_cases h2 : k < lo + n <;> simp [h1, h2]

/-! ### The canonical form -/

theorem NMap.rising_of_some {b : Nat} {m : NMap α} (h : NMap.rising (some b) m = true) :
    NMap.rising none m = true := by
  cases m with
  | nil => rfl
  | cons e m => simp only [NMap.rising, Bool.and_eq_true] at h ⊢; exact h.2

theorem NMap.rising_mono {a b : Nat} {m : NMap α} (hab : a ≤ b) (h : NMap.rising (some b) m = true) :
    NMap.rising (some a) m = true := by
  cases m with
  | nil => rfl
  | cons e m =>
    simp only [NMap.rising, Bool.and_eq_true, decide_eq_true_eq] at h ⊢
    exact ⟨by omega, h.2⟩

theorem NMap.rising_filter (p : Nat × α → Bool) : ∀ (m : NMap α) (b : Option Nat),
    NMap.rising b m = true → NMap.rising b (m.filter p) = true
  | [], b, _ => by simp [NMap.rising]
  | e :: m, none, h => by
    simp only [NMap.rising] at h
    rw [List.filter_cons]
    split
    · simp only [NMap.rising]; exact NMap.rising_filter p m _ h
    · exact NMap.rising_filter p m _ (NMap.rising_of_some h)
  | e :: m, some b, h => by
    simp only [NMap.rising, Bool.and_eq_true, decide_eq_true_eq] at h
    rw [List.filter_cons]
    split
    · simp only [NMap.rising, Bool.and_eq_true, decide_eq_true_eq]
      exact ⟨h.1, NMap.rising_filter p m _ h.2⟩
    · exact NMap.rising_filter p m _ (NMap.rising_mono (Nat.le_of_lt h.1) h.2)

theorem NMap.rising_put (v : α) (k : Nat) : ∀ (m : NMap α) (b : Option Nat),
    NMap.rising b m = true → (∀ x, b = some x → x < k) → NMap.rising b (NMap.put m k v) = true
  | [], none, _, _ => by simp [NMap.put, NMap.rising]
  | [], some b, _, hb => by simp [NMap.put, NMap.rising, hb b rfl]
  | e :: m, b, h, hb => by
    have he : NMap.rising (some e.1) m = true := by
      cases b with
      | none => simpa [NMap.rising] using h
      | some b => simp only [NMap.rising, Bool.and_eq_true] at h; exact h.2
    simp only [NMap.put]
    split
    · rename_i hk
      cases b with
      | none => simp [NMap.rising, hk, he]
      | some b => simp [NMap.rising, hk, he, hb b rfl]
    · split
      · rename_i h2
        subst h2
        cases b with
        | none => simp [NMap.rising, he]
        | some b => simp [NMap.rising, he, hb b rfl]
      · rename_i h1 h2
        have hr := NMap.rising_put v k m (some e.1) he (by intro x hx; cases hx; omega)
        cases b with
        | none => simp [NMap.rising, hr]
        | some b =>
          simp only [NMap.rising, Bool.and_eq_true, decide_eq_true_eq] at h ⊢
          exact ⟨h.1, hr⟩

theorem NMap.all_put (p : Nat × α → Bool) (k : Nat) (v : α) (hv : p (k, v) = true) : ∀ (m : NMap α),
    m.all p = true → (NMap.put m k v).all p = true
  | [], _ => by simp [NMap.put, hv]
  | e :: m, h => by
    simp only [List.all_cons, Bool.and_eq_true] at h
    simp only [NMap.put]
    split
    · simp [hv, h.1, h.2]
    · split
      · simp [hv, h.2]
      · simp only [List.all_cons, Bool.and_eq_true]
        exact ⟨h.1, NMap.all_put p k v hv m h.2⟩

theorem NMap.wf_nil [DecidableEq α] (d : α) : NMap.wf d ([] : NMap α) = true := rfl

theorem NMap.wf_filter [DecidableEq α] (d : α) (p : Nat × α → Bool) (m : NMap α) (h : NMap.wf d m = true) :
    NMap.wf d (m.filter p) = true := by
  unfold NMap.wf at h ⊢
  simp only [Bool.and_eq_true] at h ⊢
  refine ⟨NMap.rising_filter p m none h.1, ?_⟩
  rw [List.all_eq_true] at h ⊢
  intro e he
  exact h.2 e (List.mem_of_mem_filter he)

/-- A write keeps the canonical form. -/
theorem NMap.wf_set [DecidableEq α] (d : α) (m : NMap α) (k : Nat) (v : α) (h : NMap.wf d m = true) :
    NMap.wf d (NMap.set d m k v) = true := by
  unfold NMap.set
  split
  · exact NMap.wf_filter d _ m h
  · rename_i hv
    unfold NMap.wf at h ⊢
    simp only [Bool.and_eq_true] at h ⊢
    exact ⟨NMap.rising_put v k m none h.1 (by simp), NMap.all_put _ k v (by simp [hv]) m h.2⟩

/-- Clearing a range keeps the canonical form. -/
theorem NMap.wf_clear [DecidableEq α] (d : α) (m : NMap α) (lo n : Nat) (h : NMap.wf d m = true) :
    NMap.wf d (NMap.clear m lo n) = true := NMap.wf_filter d _ m h

end Sys2Proof.Machine
end

