-- ==== Sys2Proof/Laws/Regs.lean ====
section
/-! SUPPORT. Registers of a warp: reading after writing for each level, lane lists and masks, threads changed by a mask, and the
latches' shift. -/

namespace Sys2Proof.Machine

/-! ### Lanes -/

theorem lanes_nodup : lanes.Nodup := by decide

theorem mem_lanes {l : Nat} : l ∈ lanes ↔ l < 32 := by
  constructor
  · intro h
    have : ∀ x ∈ lanes, x < 32 := by decide
    exact this l h
  · intro h
    interval_cases l <;> decide

theorem hasLane_lt {m : Mask} {l : Nat} (h : hasLane m l = true) : l < 32 := by
  by_contra hl
  have : m.getLsbD l = false := BitVec.getLsbD_of_ge m l (by omega)
  simp [hasLane, this] at h

theorem mem_laneList {m : Mask} {l : Nat} : l ∈ laneList m ↔ hasLane m l = true := by
  simp only [laneList, List.mem_filter, mem_lanes]
  exact ⟨fun h => h.2, fun h => ⟨hasLane_lt h, h⟩⟩

theorem laneList_nodup (m : Mask) : (laneList m).Nodup := lanes_nodup.filter _

@[simp] theorem hasLane_zero (l : Nat) : hasLane 0#32 l = false := by simp [hasLane]

@[simp] theorem hasLane_and (a b : Mask) (l : Nat) : hasLane (a &&& b) l = (hasLane a l && hasLane b l) := by
  simp [hasLane]

@[simp] theorem hasLane_or (a b : Mask) (l : Nat) : hasLane (a ||| b) l = (hasLane a l || hasLane b l) := by
  simp [hasLane]

theorem hasLane_not (a : Mask) {l : Nat} (h : l < 32) : hasLane (~~~ a) l = !hasLane a l := by
  simp [hasLane, h]

theorem hasLane_laneBit {k : Nat} (hk : k < 32) (l : Nat) : hasLane (laneBit k) l = decide (l = k) := by
  simp only [hasLane, laneBit, BitVec.getLsbD_shiftLeft]
  rcases Nat.lt_trichotomy l k with h | h | h
  · simp [h, Nat.ne_of_lt h]
  · subst h; simp [hk]
  · by_cases hl : l < 32
    · have : l - k ≠ 0 := by omega
      simp [hl, Nat.not_lt.mpr (Nat.le_of_lt h), this, Nat.ne_of_gt h]
    · simp [hl, Nat.ne_of_gt h]

theorem hasLane_maskOf_foldl (p : Nat → Bool) (ls : List Nat) (h32 : ∀ x ∈ ls, x < 32) (m : Mask) (l : Nat) :
    hasLane (ls.foldl (fun m l => if p l then m ||| laneBit l else m) m) l =
      (hasLane m l || (decide (l ∈ ls) && p l)) := by
  induction ls generalizing m with
  | nil => simp
  | cons x xs ih =>
    have hx : x < 32 := h32 x (by simp)
    rw [List.foldl_cons, ih (fun y hy => h32 y (by simp [hy]))]
    by_cases hp : p x
    · simp only [hp, if_true, hasLane_or, hasLane_laneBit hx]
      by_cases hl : l = x
      · subst hl; simp [hp]
      · simp [hl]
    · by_cases hl : l = x
      · subst hl; simp [hp]
      · simp [hp, hl]

/-- The mask of the lanes of which a predicate holds. -/
theorem hasLane_maskOf (p : Nat → Bool) (l : Nat) : hasLane (maskOf p) l = (decide (l < 32) && p l) := by
  have h := hasLane_maskOf_foldl p lanes (fun x hx => mem_lanes.mp hx) 0 l
  simpa [maskOf, mem_lanes] using h

/-! ### Threads -/

theorem Warp.thread_setThread (w : Warp) (k l : Nat) (t : Thread) :
    (w.setThread k t).thread l = if l = k then t else w.thread l := by
  simp [Warp.thread, Warp.setThread, NMap.get_set]

theorem Warp.thread_foldl (f : Nat → Thread → Thread) (ls : List Nat) (hn : ls.Nodup) (w : Warp) (l : Nat) :
    (ls.foldl (fun w l => w.setThread l (f l (w.thread l))) w).thread l =
      if l ∈ ls then f l (w.thread l) else w.thread l := by
  induction ls generalizing w with
  | nil => simp
  | cons x xs ih =>
    rw [List.nodup_cons] at hn
    rw [List.foldl_cons, ih hn.2]
    by_cases hl : l = x
    · subst hl; simp [hn.1, Warp.thread_setThread]
    · simp [hl, Warp.thread_setThread]

/-- The threads of a mask are changed, every other thread stays. -/
theorem Warp.thread_mapThreads (w : Warp) (m : Mask) (f : Nat → Thread → Thread) (l : Nat) :
    (w.mapThreads m f).thread l = if hasLane m l then f l (w.thread l) else w.thread l := by
  rw [Warp.mapThreads, Warp.thread_foldl f _ (laneList_nodup m)]
  simp [mem_laneList]

theorem Warp.mapThreads_proj {β : Type} (w : Warp) (m : Mask) (f : Nat → Thread → Thread) (g : Warp → β)
    (hg : ∀ (w : Warp) (t : NMap Thread), g { w with threads := t } = g w) : g (w.mapThreads m f) = g w := by
  unfold Warp.mapThreads
  induction laneList m generalizing w with
  | nil => rfl
  | cons x xs ih => rw [List.foldl_cons, ih]; exact hg w _

/-- Nothing but the threads changes. -/
theorem Warp.mapThreads_rest (w : Warp) (m : Mask) (f : Nat → Thread → Thread) :
    { w.mapThreads m f with threads := [] } = { w with threads := [] } :=
  w.mapThreads_proj m f (fun w => { w with threads := [] }) (fun _ _ => rfl)

section
variable (w : Warp) (m : Mask) (f : Nat → Thread → Thread)
@[simp] theorem Warp.mapThreads_hold : (w.mapThreads m f).hold = w.hold :=
  w.mapThreads_proj m f Warp.hold (fun _ _ => rfl)
@[simp] theorem Warp.mapThreads_near : (w.mapThreads m f).near = w.near :=
  w.mapThreads_proj m f Warp.near (fun _ _ => rfl)
@[simp] theorem Warp.mapThreads_nearW : (w.mapThreads m f).nearW = w.nearW :=
  w.mapThreads_proj m f Warp.nearW (fun _ _ => rfl)
@[simp] theorem Warp.mapThreads_latch : (w.mapThreads m f).latch = w.latch :=
  w.mapThreads_proj m f Warp.latch (fun _ _ => rfl)
@[simp] theorem Warp.mapThreads_latchV : (w.mapThreads m f).latchV = w.latchV :=
  w.mapThreads_proj m f Warp.latchV (fun _ _ => rfl)
@[simp] theorem Warp.mapThreads_uni : (w.mapThreads m f).uni = w.uni :=
  w.mapThreads_proj m f Warp.uni (fun _ _ => rfl)
@[simp] theorem Warp.mapThreads_pred : (w.mapThreads m f).pred = w.pred :=
  w.mapThreads_proj m f Warp.pred (fun _ _ => rfl)
@[simp] theorem Warp.mapThreads_rejoin : (w.mapThreads m f).rejoin = w.rejoin :=
  w.mapThreads_proj m f Warp.rejoin (fun _ _ => rfl)
@[simp] theorem Warp.mapThreads_live : (w.mapThreads m f).live = w.live :=
  w.mapThreads_proj m f Warp.live (fun _ _ => rfl)
@[simp] theorem Warp.mapThreads_getHold (l r : Nat) : (w.mapThreads m f).getHold l r = w.getHold l r := by
  simp [Warp.getHold]
@[simp] theorem Warp.mapThreads_getNear (l r : Nat) : (w.mapThreads m f).getNear l r = w.getNear l r := by
  simp [Warp.getNear]
@[simp] theorem Warp.mapThreads_getLatch (l r : Nat) : (w.mapThreads m f).getLatch l r = w.getLatch l r := by
  simp [Warp.getLatch]
@[simp] theorem Warp.mapThreads_getUni (r : Nat) : (w.mapThreads m f).getUni r = w.getUni r := by
  simp [Warp.getUni]
@[simp] theorem Warp.mapThreads_nearWritten (r : Nat) : (w.mapThreads m f).nearWritten r = w.nearWritten r := by
  simp [Warp.nearWritten]
@[simp] theorem Warp.mapThreads_latchValid (k : Nat) : (w.mapThreads m f).latchValid k = w.latchValid k := by
  simp [Warp.latchValid]
@[simp] theorem Warp.mapThreads_predMask (p : Nat) : (w.mapThreads m f).predMask p = w.predMask p := by
  simp [Warp.predMask]
@[simp] theorem Warp.mapThreads_getJ (j : Nat) : (w.mapThreads m f).getJ j = w.getJ j := by
  simp [Warp.getJ]
end

/-! ### One register -/

section
variable (w : Warp) (l r : Nat) (v : Word)
@[simp] theorem Warp.getHold_setHold_self : (w.setHold l r v).getHold l r = v := by simp [Warp.getHold, Warp.setHold]
@[simp] theorem Warp.getNear_setNear_self : (w.setNear l r v).getNear l r = v := by simp [Warp.getNear, Warp.setNear]
@[simp] theorem Warp.getUni_setUni_self : (w.setUni r v).getUni r = v := by simp [Warp.getUni, Warp.setUni]
@[simp] theorem Warp.setHold_near : (w.setHold l r v).near = w.near := rfl
@[simp] theorem Warp.setHold_uni : (w.setHold l r v).uni = w.uni := rfl
@[simp] theorem Warp.setHold_threads : (w.setHold l r v).threads = w.threads := rfl
@[simp] theorem Warp.setNear_hold : (w.setNear l r v).hold = w.hold := rfl
@[simp] theorem Warp.setNear_uni : (w.setNear l r v).uni = w.uni := rfl
@[simp] theorem Warp.setNear_threads : (w.setNear l r v).threads = w.threads := rfl
@[simp] theorem Warp.setUni_hold : (w.setUni r v).hold = w.hold := rfl
@[simp] theorem Warp.setUni_near : (w.setUni r v).near = w.near := rfl
@[simp] theorem Warp.setUni_threads : (w.setUni r v).threads = w.threads := rfl
end

/-- A hold register is one word of one lane. -/
theorem Warp.getHold_setHold (w : Warp) {l r j k : Nat} (hr : r < 256) (hk : k < 256) (v : Word) :
    (w.setHold l r v).getHold j k = if j = l ∧ k = r then v else w.getHold j k := by
  simp only [Warp.getHold, Warp.setHold, NMap.get_set]
  have : (256 * j + k = 256 * l + r) ↔ (j = l ∧ k = r) := by omega
  simp [this]

theorem Warp.getNear_setNear (w : Warp) {l r j k : Nat} (hr : r < 16) (hk : k < 16) (v : Word) :
    (w.setNear l r v).getNear j k = if j = l ∧ k = r then v else w.getNear j k := by
  simp only [Warp.getNear, Warp.setNear, NMap.get_set]
  have : (16 * j + k = 16 * l + r) ↔ (j = l ∧ k = r) := by omega
  simp [this]

theorem Warp.getUni_setUni (w : Warp) (r k : Nat) (v : Word) :
    (w.setUni r v).getUni k = if k = r then v else w.getUni k := by
  simp [Warp.getUni, Warp.setUni, NMap.get_set]

theorem Warp.nearWritten_setNear (w : Warp) (l r k : Nat) (v : Word) :
    (w.setNear l r v).nearWritten k = if k = r then w.nearWritten r ||| laneBit l else w.nearWritten k := by
  simp [Warp.nearWritten, Warp.setNear, NMap.get_set]

/-- A predicate reads back; `p7` stays true in every lane (R26). -/
theorem Warp.predMask_setPredMask (w : Warp) (p q : Nat) (v : Mask) :
    (w.setPredMask p v).predMask q =
      if q = 7 then BitVec.allOnes 32 else if q = p then v else w.predMask q := by
  unfold Warp.setPredMask Warp.predMask
  by_cases hp : p = 7
  · by_cases hq : q = 7
    · simp [hq]
    · simp [hp, hq]
  · by_cases hq : q = 7
    · simp [hq]
    · simp [hq, hp, NMap.get_set]

/-! ### State -/

@[simp] theorem State.warp_setWarp_self (s : State) (g : Nat) (w : Warp) : (s.setWarp g w).warp g = w := by
  simp [State.warp, State.setWarp]

theorem State.warp_setWarp (s : State) (g k : Nat) (w : Warp) :
    (s.setWarp g w).warp k = if k = g then w else s.warp k := by
  simp [State.warp, State.setWarp, NMap.get_set]

end Sys2Proof.Machine
end

