-- ==== Sys2Proof/Laws/Issue.lean ====
section
/-! SUPPORT. What a register instruction does, said once: `Desc.run` writes its target in the guard-true lanes, shifts the
latches of its set and goes on, and changes nothing else. -/

namespace Sys2Proof.Machine

/-! ### The latches -/

theorem Warp.shiftLatches_proj {β : Type} (w : Warp) (set g : Mask) (v : Nat → Dword) (p : Warp → β)
    (hp : ∀ (w : Warp) (a : NMap Dword) (b : NMap Mask), p { w with latch := a, latchV := b } = p w) :
    p (w.shiftLatches set g v) = p w := hp w _ _

/-- One lane's latches shifted. -/
def shiftOne (g : Mask) (vals : Nat → Dword) (n : NMap Dword) (l : Nat) : NMap Dword :=
  let n := NMap.set 0 n (4 * l + 3) (NMap.get 0 n (4 * l + 2))
  let n := NMap.set 0 n (4 * l + 2) (NMap.get 0 n (4 * l + 1))
  let n := NMap.set 0 n (4 * l + 1) (NMap.get 0 n (4 * l))
  if hasLane g l then NMap.set 0 n (4 * l) (vals l) else n

theorem get_shiftOne (g : Mask) (vals : Nat → Dword) (n : NMap Dword) (l j k : Nat) (hk : k < 4) :
    NMap.get 0 (shiftOne g vals n l) (4 * j + k) =
      if j = l then (if k = 0 then (if hasLane g l then vals l else NMap.get 0 n (4 * l)) else NMap.get 0 n (4 * l + (k - 1)))
      else NMap.get 0 n (4 * j + k) := by
  unfold shiftOne
  by_cases hj : j = l
  · subst hj
    have h : k = 0 ∨ k = 1 ∨ k = 2 ∨ k = 3 := by omega
    rcases h with rfl | rfl | rfl | rfl <;> by_cases hg : hasLane g j <;> simp [hg, NMap.get_set]
  · have h0 : 4 * j + k ≠ 4 * l := by omega
    have h1 : 4 * j + k ≠ 4 * l + 1 := by omega
    have h2 : 4 * j + k ≠ 4 * l + 2 := by omega
    have h3 : 4 * j + k ≠ 4 * l + 3 := by omega
    by_cases hg : hasLane g l <;> simp [hg, hj, NMap.get_set, h0, h1, h2, h3]

theorem get_shiftAll (g : Mask) (vals : Nat → Dword) (ls : List Nat) (hn : ls.Nodup) (n : NMap Dword) (j k : Nat) (hk : k < 4) :
    NMap.get 0 (ls.foldl (shiftOne g vals) n) (4 * j + k) =
      if j ∈ ls then (if k = 0 then (if hasLane g j then vals j else NMap.get 0 n (4 * j)) else NMap.get 0 n (4 * j + (k - 1)))
      else NMap.get 0 n (4 * j + k) := by
  induction ls generalizing n with
  | nil => simp
  | cons x xs ih =>
    rw [List.nodup_cons] at hn
    rw [List.foldl_cons, ih hn.2]
    have h0 := get_shiftOne g vals n x j 0 (by omega)
    have h1 := get_shiftOne g vals n x j (k - 1) (by omega)
    have h2 := get_shiftOne g vals n x j k hk
    simp only [Nat.add_zero] at h0
    by_cases hj : j = x
    · subst hj
      rw [if_neg hn.1, if_pos (List.mem_cons_self), h2, if_pos rfl]
    · rw [if_neg hj] at h0 h1 h2
      rw [h0, h1, h2]
      simp only [List.mem_cons, hj, false_or]

theorem Warp.getLatch_shiftLatches (w : Warp) (set g : Mask) (v : Nat → Dword) (l k : Nat) (hk : k < 4) :
    (w.shiftLatches set g v).getLatch l k =
      if hasLane set l then (if k = 0 then (if hasLane g l then v l else w.getLatch l 0) else w.getLatch l (k - 1))
      else w.getLatch l k := by
  have h := get_shiftAll g v (laneList set) (laneList_nodup set) w.latch l k hk
  simp only [mem_laneList] at h
  exact h

theorem Warp.latchValid_shiftLatches (w : Warp) (set g : Mask) (v : Nat → Dword) (l k : Nat) (hl : l < 32) (hk : k < 4) :
    hasLane ((w.shiftLatches set g v).latchValid k) l =
      if hasLane set l then (if k = 0 then hasLane g l else hasLane (w.latchValid (k - 1)) l)
      else hasLane (w.latchValid k) l := by
  have h : k = 0 ∨ k = 1 ∨ k = 2 ∨ k = 3 := by omega
  rcases h with rfl | rfl | rfl | rfl <;>
    by_cases hs : hasLane set l <;>
    simp [Warp.latchValid, Warp.shiftLatches, NMap.get_set, hasLane_not _ hl, hs]

/-! ### One result -/

theorem Warp.writeVal_proj {β : Type} (w : Warp) (l : Nat) (d : DReg) (wide : Bool) (v : Dword) (p : Warp → β)
    (hp : ∀ (w : Warp) (a b : NMap Word) (c : NMap Mask) (e : NMap Word),
      p { w with hold := a, near := b, nearW := c, uni := e } = p w) : p (w.writeVal l d wide v) = p w := by
  cases d <;> cases wide <;> exact hp w _ _ _ _

/-- Room for a result at a register of `n` in its level. -/
theorem evenFor_fits {wide : Bool} {i n : Nat} (h : evenFor (if wide then 2 else 1) i = true) (hi : i < 2 * n) :
    wide = true → i + 1 < 2 * n := by
  intro hw
  subst hw
  simp [evenFor] at h
  omega

theorem Warp.getHold_writeVal (w : Warp) (l j k : Nat) (i : BitVec 8) (wide : Bool) (v : Dword)
    (hi : wide = true → i.toNat + 1 < 256) (hk : k < 256) :
    (w.writeVal l (.hold i) wide v).getHold j k =
      if j = l then ((Target.reg (.reg (.hold i) false) wide).holdWord k v).getD (w.getHold j k) else w.getHold j k := by
  have h8 := i.isLt
  cases wide
  · simp only [Warp.writeVal, Warp.writeReg, Nat.add_zero, Target.holdWord, Bool.false_eq_true, if_false, false_and]
    rw [Warp.getHold_setHold _ (by omega) hk]
    by_cases hj : j = l <;> by_cases hr : k = i.toNat <;> simp [hj, hr]
  · have := hi rfl
    simp only [Warp.writeVal, Warp.writeReg, Nat.add_zero, Target.holdWord, if_true]
    rw [Warp.getHold_setHold _ (by omega) hk, Warp.getHold_setHold _ (by omega) hk]
    by_cases hj : j = l <;> by_cases hr : k = i.toNat <;> by_cases hr' : k = i.toNat + 1 <;> simp [hj, hr, hr']

theorem Warp.getNear_writeVal (w : Warp) (l j k : Nat) (i : BitVec 4) (wide : Bool) (v : Dword)
    (hi : wide = true → i.toNat + 1 < 16) (hk : k < 16) :
    (w.writeVal l (.near i) wide v).getNear j k =
      if j = l then ((Target.reg (.reg (.near i) false) wide).nearWord k v).getD (w.getNear j k) else w.getNear j k := by
  have h8 := i.isLt
  cases wide
  · simp only [Warp.writeVal, Warp.writeReg, Nat.add_zero, Target.nearWord, Bool.false_eq_true, if_false, false_and]
    rw [Warp.getNear_setNear _ (by omega) hk]
    by_cases hj : j = l <;> by_cases hr : k = i.toNat <;> simp [hj, hr]
  · have := hi rfl
    simp only [Warp.writeVal, Warp.writeReg, Nat.add_zero, Target.nearWord, if_true]
    rw [Warp.getNear_setNear _ (by omega) hk, Warp.getNear_setNear _ (by omega) hk]
    by_cases hj : j = l <;> by_cases hr : k = i.toNat <;> by_cases hr' : k = i.toNat + 1 <;> simp [hj, hr, hr']

theorem Warp.nearWritten_writeVal (w : Warp) (l j k : Nat) (i : BitVec 4) (wide : Bool) (v x : Dword) (hl : l < 32) :
    hasLane ((w.writeVal l (.near i) wide v).nearWritten k) j =
      (hasLane (w.nearWritten k) j ||
        (((Target.reg (.reg (.near i) false) wide).nearWord k x).isSome && decide (j = l))) := by
  cases wide
  · simp only [Warp.writeVal, Warp.writeReg, Nat.add_zero, Target.nearWord, Bool.false_eq_true, if_false, false_and]
    rw [Warp.nearWritten_setNear]
    by_cases hr : k = i.toNat <;> simp [hr, hasLane_laneBit hl]
  · simp only [Warp.writeVal, Warp.writeReg, Nat.add_zero, Target.nearWord, if_true]
    rw [Warp.nearWritten_setNear, Warp.nearWritten_setNear]
    by_cases hr : k = i.toNat <;> by_cases hr' : k = i.toNat + 1 <;> simp [hr, hr', Warp.nearWritten_setNear, hasLane_laneBit hl]

theorem Warp.getUni_writeVal (w : Warp) (l k : Nat) (i : BitVec 6) (wide : Bool) (v : Dword) :
    (w.writeVal l (.uniform i) wide v).getUni k =
      ((Target.reg (.reg (.uniform i) false) wide).uniWord k v).getD (w.getUni k) := by
  cases wide
  · simp only [Warp.writeVal, Warp.writeReg, Nat.add_zero, Target.uniWord, Bool.false_eq_true, if_false, false_and]
    rw [Warp.getUni_setUni]
    by_cases hr : k = i.toNat <;> simp [hr]
  · simp only [Warp.writeVal, Warp.writeReg, Nat.add_zero, Target.uniWord, if_true]
    rw [Warp.getUni_setUni, Warp.getUni_setUni]
    by_cases hr : k = i.toNat <;> by_cases hr' : k = i.toNat + 1 <;> simp [hr, hr']

/-! ### A result in every lane of a mask -/

/-- Something that reads one lane of a map, after each lane of a list has been changed in turn. -/
theorem foldl_lane {β γ : Type} (step : β → Nat → β) (read : β → γ) (j : Nat) (new : γ → γ) (ls : List Nat) (hn : ls.Nodup)
    (hs : ∀ b l, l ∈ ls → read (step b l) = if j = l then new (read b) else read b) (b : β) :
    read (ls.foldl step b) = if j ∈ ls then new (read b) else read b := by
  induction ls generalizing b with
  | nil => simp
  | cons x xs ih =>
    rw [List.nodup_cons] at hn
    rw [List.foldl_cons, ih hn.2 (fun b l hl => hs b l (by simp [hl])), hs b x (by simp)]
    by_cases hj : j = x
    · subst hj; simp [hn.1]
    · simp [hj]

/-- Something that no lane's change touches. -/
theorem foldl_same {β γ : Type} (step : β → Nat → β) (read : β → γ) (ls : List Nat)
    (hs : ∀ b l, l ∈ ls → read (step b l) = read b) (b : β) : read (ls.foldl step b) = read b := by
  induction ls generalizing b with
  | nil => rfl
  | cons x xs ih => rw [List.foldl_cons, ih (fun b l hl => hs b l (by simp [hl])), hs b x (by simp)]

/-! ### The effect of a register instruction on its warp -/

theorem Desc.latch_proj {β : Type} (d : Desc) (w : Warp) (i : Issue) (acc : Warp) (p : Warp → β)
    (hp : ∀ (w : Warp) (a : NMap Dword) (b : NMap Mask), p { w with latch := a, latchV := b } = p w) :
    p (d.latch w i acc) = p acc := by
  unfold Desc.latch
  split
  · rfl
  · exact hp acc _ _

theorem Desc.write_proj {β : Type} (d : Desc) (w : Warp) (i : Issue) (acc : Warp) (p : Warp → β)
    (hp : ∀ (w : Warp) (a b : NMap Word) (c : NMap Mask) (e : NMap Word) (f : NMap Mask),
      p { w with hold := a, near := b, nearW := c, uni := e, pred := f } = p w) :
    p (d.write w i acc) = p acc := by
  have hv : ∀ (w : Warp) (a b : NMap Word) (c : NMap Mask) (e : NMap Word),
      p { w with hold := a, near := b, nearW := c, uni := e } = p w := fun w a b c e => hp w a b c e w.pred
  unfold Desc.write
  split
  · unfold Warp.setPredIn Warp.setPredMask
    split
    · rfl
    · exact hp acc _ _ _ _ _
  · rfl
  · split
    · split
      · rfl
      · exact Warp.writeVal_proj _ _ _ _ _ p hv
    · rfl
  · split
    · rfl
    · exact foldl_same _ p _ (fun b l _ => Warp.writeVal_proj _ _ _ _ _ p hv) acc

/-- What a hold register reads after the write. -/
theorem Desc.write_getHold (d : Desc) (w : Warp) (i : Issue) (acc : Warp) (hok : d.tgt.ok = true) (l r : Nat) (hr : r < 256) :
    (d.write w i acc).getHold l r =
      if hasLane (w.guarded i.mask d.guard) l then (d.tgt.holdWord r (d.value w i l)).getD (acc.getHold l r)
      else acc.getHold l r := by
  have hu : ∀ (a : Warp) (x : Nat) (j : BitVec 6) (wide : Bool) (v : Dword),
      (a.writeVal x (.uniform j) wide v).getHold l r = a.getHold l r := by
    intro a x j wide v; cases wide <;> rfl
  have hn : ∀ (a : Warp) (x : Nat) (j : BitVec 4) (wide : Bool) (v : Dword),
      (a.writeVal x (.near j) wide v).getHold l r = a.getHold l r := by
    intro a x j wide v; cases wide <;> rfl
  obtain ⟨g, lit, srcs, tgt, xl, fn⟩ := d
  rcases tgt with ⟨dst, wide⟩ | p
  · rcases dst with _ | ⟨reg, nw⟩
    · simp [Desc.write, Target.holdWord]
    · cases nw
      · rcases reg with j | j | j
        · have hfit : wide = true → j.toNat + 1 < 256 :=
            evenFor_fits (n := 128) (by simpa [Target.ok, Dst.ok] using hok) j.isLt
          simp only [Desc.write, Bool.false_eq_true, if_false]
          refine (foldl_lane _ (fun (a : Warp) => a.getHold l r) l
            (fun x => ((Target.reg (.reg (.hold j) false) wide).holdWord r
              (Desc.value ⟨g, lit, srcs, .reg (.reg (.hold j) false) wide, xl, fn⟩ w i l)).getD x)
            _ (laneList_nodup _) ?_ acc).trans ?_
          · intro b x _
            rw [Warp.getHold_writeVal _ _ _ _ _ _ _ hfit hr]
            by_cases hx : l = x <;> simp [hx]
          · simp [mem_laneList]
        · simp only [Desc.write, Bool.false_eq_true, if_false]
          rw [foldl_same _ (fun a => a.getHold l r) _ (fun b x _ => hn b x j wide _)]
          simp [Target.holdWord]
        · simp only [Desc.write, Bool.false_eq_true, if_false]
          split <;> simp [Target.holdWord, hu]
      · rcases reg with j | j | j <;> simp [Desc.write, Target.holdWord]
        split <;> simp
  · simp [Desc.write, Target.holdWord, Warp.setPredIn, Warp.setPredMask]
    split <;> rfl

/-- What a near register reads after the write. -/
theorem Desc.write_getNear (d : Desc) (w : Warp) (i : Issue) (acc : Warp) (hok : d.tgt.ok = true) (l r : Nat) (hr : r < 16) :
    (d.write w i acc).getNear l r =
      if hasLane (w.guarded i.mask d.guard) l then (d.tgt.nearWord r (d.value w i l)).getD (acc.getNear l r)
      else acc.getNear l r := by
  have hu : ∀ (a : Warp) (x : Nat) (j : BitVec 6) (wide : Bool) (v : Dword),
      (a.writeVal x (.uniform j) wide v).getNear l r = a.getNear l r := by
    intro a x j wide v; cases wide <;> rfl
  have hn : ∀ (a : Warp) (x : Nat) (j : BitVec 8) (wide : Bool) (v : Dword),
      (a.writeVal x (.hold j) wide v).getNear l r = a.getNear l r := by
    intro a x j wide v; cases wide <;> rfl
  obtain ⟨g, lit, srcs, tgt, xl, fn⟩ := d
  rcases tgt with ⟨dst, wide⟩ | p
  · rcases dst with _ | ⟨reg, nw⟩
    · simp [Desc.write, Target.nearWord]
    · cases nw
      · rcases reg with j | j | j
        · simp only [Desc.write, Bool.false_eq_true, if_false]
          rw [foldl_same _ (fun a => a.getNear l r) _ (fun b x _ => hn b x j wide _)]
          simp [Target.nearWord]
        · have hfit : wide = true → j.toNat + 1 < 16 :=
            evenFor_fits (n := 8) (by simpa [Target.ok, Dst.ok] using hok) j.isLt
          simp only [Desc.write, Bool.false_eq_true, if_false]
          refine (foldl_lane _ (fun (a : Warp) => a.getNear l r) l
            (fun x => ((Target.reg (.reg (.near j) false) wide).nearWord r
              (Desc.value ⟨g, lit, srcs, .reg (.reg (.near j) false) wide, xl, fn⟩ w i l)).getD x)
            _ (laneList_nodup _) ?_ acc).trans ?_
          · intro b x _
            rw [Warp.getNear_writeVal _ _ _ _ _ _ _ hfit hr]
            by_cases hx : l = x <;> simp [hx]
          · simp [mem_laneList]
        · simp only [Desc.write, Bool.false_eq_true, if_false]
          split <;> simp [Target.nearWord, hu]
      · rcases reg with j | j | j <;> simp [Desc.write, Target.nearWord]
        split <;> simp
  · simp [Desc.write, Target.nearWord, Warp.setPredIn, Warp.setPredMask]
    split <;> rfl

/-- The written bits after the write. -/
theorem Desc.write_nearWritten (d : Desc) (w : Warp) (i : Issue) (acc : Warp) (l r : Nat) :
    hasLane ((d.write w i acc).nearWritten r) l =
      (hasLane (acc.nearWritten r) l || ((d.tgt.nearWord r 0).isSome && hasLane (w.guarded i.mask d.guard) l)) := by
  have hu : ∀ (a : Warp) (x : Nat) (j : BitVec 6) (wide : Bool) (v : Dword),
      (a.writeVal x (.uniform j) wide v).nearWritten r = a.nearWritten r := by
    intro a x j wide v; cases wide <;> rfl
  have hn : ∀ (a : Warp) (x : Nat) (j : BitVec 8) (wide : Bool) (v : Dword),
      (a.writeVal x (.hold j) wide v).nearWritten r = a.nearWritten r := by
    intro a x j wide v; cases wide <;> rfl
  obtain ⟨g, lit, srcs, tgt, xl, fn⟩ := d
  rcases tgt with ⟨dst, wide⟩ | p
  · rcases dst with _ | ⟨reg, nw⟩
    · simp [Desc.write, Target.nearWord]
    · cases nw
      · rcases reg with j | j | j
        · simp only [Desc.write, Bool.false_eq_true, if_false]
          rw [foldl_same _ (fun a => a.nearWritten r) _ (fun b x _ => hn b x j wide _)]
          simp [Target.nearWord]
        · simp only [Desc.write, Bool.false_eq_true, if_false]
          refine (foldl_lane _ (fun (a : Warp) => hasLane (a.nearWritten r) l) l
            (fun x => x || ((Target.reg (.reg (.near j) false) wide).nearWord r 0).isSome)
            _ (laneList_nodup _) ?_ acc).trans ?_
          · intro b x hx
            rw [Warp.nearWritten_writeVal _ _ _ _ _ _ _ 0 (hasLane_lt (mem_laneList.mp hx))]
            by_cases hx : l = x <;> simp [hx]
          · simp only [mem_laneList]
            by_cases hg : hasLane (w.guarded i.mask g) l <;> simp [hg]
        · simp only [Desc.write, Bool.false_eq_true, if_false]
          split <;> simp [Target.nearWord, hu]
      · rcases reg with j | j | j <;> simp [Desc.write, Target.nearWord]
        split <;> simp
  · simp [Desc.write, Target.nearWord, Warp.setPredIn, Warp.setPredMask]
    split <;> rfl

/-- What a uniform register reads after the write. -/
theorem Desc.write_getUni (d : Desc) (w : Warp) (i : Issue) (acc : Warp) (r : Nat) :
    (d.write w i acc).getUni r = match d.uniLane w i with
      | some l => (d.tgt.uniWord r (d.value w i l)).getD (acc.getUni r)
      | none => acc.getUni r := by
  have hu : ∀ (a : Warp) (x : Nat) (j : BitVec 4) (wide : Bool) (v : Dword),
      (a.writeVal x (.near j) wide v).getUni r = a.getUni r := by
    intro a x j wide v; cases wide <;> rfl
  have hn : ∀ (a : Warp) (x : Nat) (j : BitVec 8) (wide : Bool) (v : Dword),
      (a.writeVal x (.hold j) wide v).getUni r = a.getUni r := by
    intro a x j wide v; cases wide <;> rfl
  obtain ⟨g, lit, srcs, tgt, xl, fn⟩ := d
  rcases tgt with ⟨dst, wide⟩ | p
  · rcases dst with _ | ⟨reg, nw⟩
    · simp only [Desc.write, Target.uniWord]
      split <;> rfl
    · cases nw
      · rcases reg with j | j | j
        · simp only [Desc.write, Bool.false_eq_true, if_false, Target.uniWord]
          rw [foldl_same _ (fun a => a.getUni r) _ (fun b x _ => hn b x j wide _)]
          split <;> rfl
        · simp only [Desc.write, Bool.false_eq_true, if_false, Target.uniWord]
          rw [foldl_same _ (fun a => a.getUni r) _ (fun b x _ => hu b x j wide _)]
          split <;> rfl
        · simp only [Desc.write, Bool.false_eq_true, if_false]
          split
          · rename_i h
            first
              | exact Warp.getUni_writeVal _ _ _ _ _ _
              | (simp only [h]; exact Warp.getUni_writeVal _ _ _ _ _ _)
          · rename_i h
            first
              | rfl
              | (simp only [h]; done)
      · rcases reg with j | j | j <;> simp only [Desc.write, Target.uniWord, if_true] <;> split <;>
          first | rfl | (rename_i h; simp only [h]; done) | (rename_i h; simp only [h]; rfl)
  · simp only [Desc.write, Target.uniWord, Warp.setPredIn, Warp.setPredMask]
    split <;> split <;> rfl

/-- What a predicate reads after the write. -/
theorem Desc.write_getPred (d : Desc) (w : Warp) (i : Issue) (acc : Warp) (l p : Nat) (hl : l < 32) :
    (d.write w i acc).getPred l p =
      if d.tgt.isPred p && hasLane (w.guarded i.mask d.guard) l then (d.value w i l).getLsbD 0 else acc.getPred l p := by
  have hall : ∀ (a : Warp) (x : Nat) (r : DReg) (wide : Bool) (v : Dword),
      (a.writeVal x r wide v).getPred l p = a.getPred l p :=
    fun a x r wide v => Warp.writeVal_proj a x r wide v (fun a => a.getPred l p) (fun _ _ _ _ _ => rfl)
  obtain ⟨g, lit, srcs, tgt, xl, fn⟩ := d
  rcases tgt with ⟨dst, wide⟩ | q
  · rcases dst with _ | ⟨reg, nw⟩
    · simp [Desc.write, Target.isPred]
    · cases nw
      · rcases reg with j | j | j
        · simp only [Desc.write, Bool.false_eq_true, if_false, Target.isPred, Bool.false_and]
          exact foldl_same _ (fun a => a.getPred l p) _ (fun b x _ => hall b x _ wide _) acc
        · simp only [Desc.write, Bool.false_eq_true, if_false, Target.isPred, Bool.false_and]
          exact foldl_same _ (fun a => a.getPred l p) _ (fun b x _ => hall b x _ wide _) acc
        · simp only [Desc.write, Bool.false_eq_true, if_false, Target.isPred, Bool.false_and]
          split <;> simp [hall]
      · rcases reg with j | j | j <;> simp [Desc.write, Target.isPred]
        split <;> simp
  · simp only [Desc.write, Warp.setPredIn, Warp.getPred, Target.isPred]
    rw [Warp.predMask_setPredMask]
    by_cases hp7 : p = 7
    · subst hp7
      simp [Warp.predMask]
    · by_cases hq : p = q.toNat
      · subst hq
        simp only [hp7, if_false, if_true, beq_self_eq_true, Bool.true_and]
        by_cases hg : hasLane (w.guarded i.mask g) l
        · simp [hg, hasLane_not _ hl, hasLane_maskOf, hl, hp7]
        · simp [hg, hasLane_not _ hl]
      · have : ¬ (q.toNat = p) := fun h => hq h.symm
        simp [hp7, hq, this]

/-- EVERYTHING A REGISTER INSTRUCTION DOES: behind the checks of its operands it goes on, with its target written, its set's
latches shifted and its threads at the next instruction, and nothing else changed. -/
theorem Desc.run_wrote (d : Desc) (s : State) (hok : d.tgt.ok = true) (hc : s.operandsOk d.shape) :
    ∃ t, d.run s = .next t ∧
      s.Wrote t d.guard d.tgt (d.uniLane s.iw s.iss) (d.value s.iw s.iss) (d.latchVal s.iw s.iss) := by
  refine ⟨s.setIw ((d.effect s.iw s.iss).advance s.iss), ?_, ?_⟩
  · unfold State.operandsOk at hc
    unfold Desc.run State.guardedRun
    rw [hc]
    rfl
  · have hiw : (s.setIw ((d.effect s.iw s.iss).advance s.iss)).iw = (d.effect s.iw s.iss).advance s.iss :=
      State.warp_setWarp_self s s.iss.gw _
    have hlat : ∀ {β : Type} (p : Warp → β), (∀ (w : Warp) (a : NMap Dword) (b : NMap Mask),
        p { w with latch := a, latchV := b } = p w) → p (d.latch s.iw s.iss s.iw) = p s.iw :=
      fun p hp => d.latch_proj s.iw s.iss s.iw p hp
    have hwr : ∀ {β : Type} (p : Warp → β), (∀ (w : Warp) (a b : NMap Word) (c : NMap Mask) (e : NMap Word) (f : NMap Mask),
        p { w with hold := a, near := b, nearW := c, uni := e, pred := f } = p w) →
        p (d.effect s.iw s.iss) = p (d.latch s.iw s.iss s.iw) :=
      fun p hp => d.write_proj s.iw s.iss _ p hp
    refine ⟨⟨rfl, ?_⟩, ?_, ?_, ?_, ?_, ?_, ?_, ?_, ?_, ?_⟩
    · intro gw hgw
      rw [State.setIw, State.warp_setWarp, if_neg hgw]
    · rw [hiw]
      exact (Warp.mapThreads_proj _ _ _ Warp.bare (fun _ _ => rfl)).trans
        ((hwr Warp.bare (fun _ _ _ _ _ _ => rfl)).trans (hlat Warp.bare (fun _ _ _ => rfl)))
    · intro l
      rw [hiw, Warp.advance, Warp.advanceIn, Warp.thread_mapThreads,
        hwr (fun w => w.thread l) (fun _ _ _ _ _ _ => rfl), hlat (fun w => w.thread l) (fun _ _ _ => rfl)]
    · intro l r hr
      rw [hiw, Warp.advance, Warp.advanceIn, Warp.mapThreads_getHold, Desc.effect, Desc.write_getHold _ _ _ _ hok _ _ hr,
        hlat (fun w => w.getHold l r) (fun _ _ _ => rfl)]
      rfl
    · intro l r hr
      rw [hiw, Warp.advance, Warp.advanceIn, Warp.mapThreads_getNear, Desc.effect, Desc.write_getNear _ _ _ _ hok _ _ hr,
        hlat (fun w => w.getNear l r) (fun _ _ _ => rfl)]
      rfl
    · intro l r _ _
      rw [hiw, Warp.advance, Warp.advanceIn, Warp.mapThreads_nearWritten, Desc.effect, Desc.write_nearWritten,
        hlat (fun w => w.nearWritten r) (fun _ _ _ => rfl)]
      rfl
    · intro r
      rw [hiw, Warp.advance, Warp.advanceIn, Warp.mapThreads_getUni, Desc.effect, Desc.write_getUni,
        hlat (fun w => w.getUni r) (fun _ _ _ => rfl)]
      try rfl
    · intro p l hl
      have hg : ∀ w : Warp, w.getPred l p = hasLane (w.predMask p) l := fun _ => rfl
      rw [hiw, hg, Warp.advance, Warp.advanceIn, Warp.mapThreads_predMask, ← hg, Desc.effect, Desc.write_getPred _ _ _ _ _ _ hl,
        hlat (fun w => w.getPred l p) (fun _ _ _ => rfl)]
      rfl
    · intro l k hk
      rw [hiw, Warp.advance, Warp.advanceIn, Warp.mapThreads_getLatch, hwr (fun w => w.getLatch l k) (fun _ _ _ _ _ _ => rfl)]
      cases h : d.tgt with
      | pred q => simp [Desc.latch, h, Target.shifts]
      | reg r wide =>
        simp only [Desc.latch, h, Target.shifts, Bool.true_and]
        rw [Warp.getLatch_shiftLatches _ _ _ _ _ _ hk]
        rfl
    · intro l k hl hk
      rw [hiw, Warp.advance, Warp.advanceIn, Warp.mapThreads_latchValid,
        hwr (fun w => w.latchValid k) (fun _ _ _ _ _ _ => rfl)]
      cases h : d.tgt with
      | pred q => simp [Desc.latch, h, Target.shifts]
      | reg r wide =>
        simp only [Desc.latch, h, Target.shifts, Bool.true_and]
        rw [Warp.latchValid_shiftLatches _ _ _ _ _ _ hl hk]
        rfl

/-- The same for an instruction whose lanes do not see one another, in the terms of `Computes`. -/
theorem computes_of_run (i : Instr) (h : Hdr) (tgt : Target) (srcs : List (Opd × Ty))
    (f : Bool → (Nat → Bool) → List Dword → Dword) (d : Desc) (he : ∀ s, exec i s = d.run s)
    (hd : d = { guard := h.guard, lit := h.lit, srcs := srcs, tgt := tgt, xlane := false,
                fn := fun fl _ xs pr l => f fl (pr l) (xs l) }) : Computes i h tgt srcs f := by
  subst hd
  intro hok s hc
  obtain ⟨t, ht, hw⟩ := Desc.run_wrote { guard := h.guard, lit := h.lit, srcs := srcs, tgt := tgt, xlane := false,
                                         fn := fun fl _ xs pr l => f fl (pr l) (xs l) } s hok hc
  refine ⟨t, (he s).trans ht, ?_⟩
  have hk : Desc.latchVal { guard := h.guard, lit := h.lit, srcs := srcs, tgt := tgt, xlane := false,
                            fn := fun fl _ xs pr l => f fl (pr l) (xs l) } s.iw s.iss =
      s.k1 tgt (fun l => f s.iw.flush (fun p => s.iw.getPred l p) (s.args h srcs l)) := by
    funext l
    cases tgt with
    | pred p => rfl
    | reg r wide => cases r with
      | none => rfl
      | reg r nw => cases r <;> rfl
  rw [hk] at hw
  exact hw

end Sys2Proof.Machine
end

