-- ==== Sys2Proof/Laws/PerInstr.lean ====
section
/-! SUPPORT. The family `Enc` of statements made for each instruction: its encoding, if it has one, is as long as the length code
of its first word announces (R47); one lemma for each constructor. -/

namespace Sys2Proof.Laws.Enc
open Sys2Proof

/-- The encoding of an instruction has the length that its first word announces (R47). -/
def Statement (i : Instr) : Prop :=
  ∀ ws, encode i = some ws → lengthOf (ws.getD 0 0) = some ws.length

/-- The last part of a concatenation is its low bits. -/
theorem low_bits {n : Nat} (x : BitVec n) (c : BitVec 2) : (x ++ c).extractLsb' 0 2 = c := by
  apply BitVec.eq_of_getLsbD_eq
  intro i hi
  simp [BitVec.getLsbD_append, hi]

/-- A 64-bit or 96-bit form announces its length. -/
theorem words_length (r : Raw) : lengthOf (r.words.getD 0 0) = some r.words.length := by
  have h : r.word0.extractLsb' 0 2 = if r.long then (3 : BitVec 2) else 2 := low_bits _ _
  cases hl : r.long <;> simp [Raw.words, lengthOf, hl] at h ⊢ <;> simp [h]

/-- A compact form announces one word. -/
theorem compact_length (cop : BitVec 6) (d : Dst8) (a b : BitVec 8) : lengthOf (compactWord cop d a b) = some 1 := by
  have h : (compactWord cop d a b).extractLsb' 0 2 = 0 := low_bits _ _
  simp [lengthOf, h]

/-- So does the compact `BRA`. -/
theorem bra_length (off : BitVec 24) : lengthOf (off ++ (0x3E : BitVec 6) ++ (0 : BitVec 2)) = some 1 := by
  have h : ((off ++ (0x3E : BitVec 6) ++ (0 : BitVec 2) : Word)).extractLsb' 0 2 = 0 := low_bits _ _
  simp only [lengthOf, h]; rfl

/-- Every form given by its fields. -/
theorem of_raw {i : Instr} (hc : i.compact? = none) : Statement i := by
  intro ws h
  simp only [encode, hc] at h
  cases hr : i.raw with
  | none => simp [hr] at h
  | some r => simp [hr] at h; subst h; exact words_length r

/-- Every compact form. -/
theorem of_compact {i : Instr} {w : Word} (hc : i.compact? = some w) (hw : lengthOf w = some 1) : Statement i := by
  intro ws h
  simp only [encode, hc, Option.some.injEq] at h
  subst h
  exact hw

theorem add (h : Hdr) (w : Width) (d : Dst) (a b : Opd) : Statement (.add h w d a b) := of_raw rfl
theorem sub (h : Hdr) (w : Width) (d : Dst) (a b : Opd) : Statement (.sub h w d a b) := of_raw rfl
theorem mul (h : Hdr) (w : Width) (d : Dst) (a b : Opd) : Statement (.mul h w d a b) := of_raw rfl
theorem mulh (h : Hdr) (w : Width) (d : Dst) (a b : Opd) : Statement (.mulh h w d a b) := of_raw rfl
theorem mulhn (h : Hdr) (w : Width) (d : Dst) (a b : Opd) : Statement (.mulhn h w d a b) := of_raw rfl
theorem div (h : Hdr) (w : Width) (d : Dst) (a b : Opd) : Statement (.div h w d a b) := of_raw rfl
theorem divn (h : Hdr) (w : Width) (d : Dst) (a b : Opd) : Statement (.divn h w d a b) := of_raw rfl
theorem rem (h : Hdr) (w : Width) (d : Dst) (a b : Opd) : Statement (.rem h w d a b) := of_raw rfl
theorem remn (h : Hdr) (w : Width) (d : Dst) (a b : Opd) : Statement (.remn h w d a b) := of_raw rfl
theorem minS (h : Hdr) (w : Width) (d : Dst) (a b : Opd) : Statement (.minS h w d a b) := of_raw rfl
theorem maxS (h : Hdr) (w : Width) (d : Dst) (a b : Opd) : Statement (.maxS h w d a b) := of_raw rfl
theorem minn (h : Hdr) (w : Width) (d : Dst) (a b : Opd) : Statement (.minn h w d a b) := of_raw rfl
theorem maxn (h : Hdr) (w : Width) (d : Dst) (a b : Opd) : Statement (.maxn h w d a b) := of_raw rfl
theorem andB (h : Hdr) (w : Width) (d : Dst) (a b : Opd) : Statement (.andB h w d a b) := of_raw rfl
theorem orB (h : Hdr) (w : Width) (d : Dst) (a b : Opd) : Statement (.orB h w d a b) := of_raw rfl
theorem xorB (h : Hdr) (w : Width) (d : Dst) (a b : Opd) : Statement (.xorB h w d a b) := of_raw rfl
theorem andn (h : Hdr) (w : Width) (d : Dst) (a b : Opd) : Statement (.andn h w d a b) := of_raw rfl
theorem orn (h : Hdr) (w : Width) (d : Dst) (a b : Opd) : Statement (.orn h w d a b) := of_raw rfl
theorem shl (h : Hdr) (w : Width) (d : Dst) (a b : Opd) : Statement (.shl h w d a b) := of_raw rfl
theorem shr (h : Hdr) (w : Width) (d : Dst) (a b : Opd) : Statement (.shr h w d a b) := of_raw rfl
theorem sar (h : Hdr) (w : Width) (d : Dst) (a b : Opd) : Statement (.sar h w d a b) := of_raw rfl
theorem rol (h : Hdr) (w : Width) (d : Dst) (a b : Opd) : Statement (.rol h w d a b) := of_raw rfl
theorem ror (h : Hdr) (w : Width) (d : Dst) (a b : Opd) : Statement (.ror h w d a b) := of_raw rfl
theorem mad (h : Hdr) (w : Width) (d : Dst) (a b c : Opd) : Statement (.mad h w d a b c) := of_raw rfl
theorem madh (h : Hdr) (w : Width) (d : Dst) (a b c : Opd) : Statement (.madh h w d a b c) := of_raw rfl
theorem lea (h : Hdr) (w : Width) (d : Dst) (a b c : Opd) : Statement (.lea h w d a b c) := of_raw rfl
theorem bfx (h : Hdr) (w : Width) (d : Dst) (a b : Opd) : Statement (.bfx h w d a b) := of_raw rfl
theorem bfi (h : Hdr) (w : Width) (d : Dst) (a b c : Opd) : Statement (.bfi h w d a b c) := of_raw rfl
theorem sel (h : Hdr) (w : Width) (d : Dst) (a b : Opd) (p : BitVec 3) : Statement (.sel h w d a b p) := of_raw rfl
theorem add3 (h : Hdr) (w : Width) (d : Dst) (a b c : Opd) : Statement (.add3 h w d a b c) := of_raw rfl
theorem mov (h : Hdr) (w : Width) (d : Dst) (a : Opd) : Statement (.mov h w d a) := of_raw rfl
theorem neg (h : Hdr) (w : Width) (d : Dst) (a : Opd) : Statement (.neg h w d a) := of_raw rfl
theorem abs (h : Hdr) (w : Width) (d : Dst) (a : Opd) : Statement (.abs h w d a) := of_raw rfl
theorem notB (h : Hdr) (w : Width) (d : Dst) (a : Opd) : Statement (.notB h w d a) := of_raw rfl
theorem popc (h : Hdr) (w : Width) (d : Dst) (a : Opd) : Statement (.popc h w d a) := of_raw rfl
theorem clz (h : Hdr) (w : Width) (d : Dst) (a : Opd) : Statement (.clz h w d a) := of_raw rfl
theorem ctz (h : Hdr) (w : Width) (d : Dst) (a : Opd) : Statement (.ctz h w d a) := of_raw rfl
theorem brev (h : Hdr) (w : Width) (d : Dst) (a : Opd) : Statement (.brev h w d a) := of_raw rfl
theorem sext8 (h : Hdr) (w : Width) (d : Dst) (a : Opd) : Statement (.sext8 h w d a) := of_raw rfl
theorem sext16 (h : Hdr) (w : Width) (d : Dst) (a : Opd) : Statement (.sext16 h w d a) := of_raw rfl
theorem zext8 (h : Hdr) (w : Width) (d : Dst) (a : Opd) : Statement (.zext8 h w d a) := of_raw rfl
theorem zext16 (h : Hdr) (w : Width) (d : Dst) (a : Opd) : Statement (.zext16 h w d a) := of_raw rfl
theorem cmp (h : Hdr) (cond : CmpCond) (w : Width) (pd : BitVec 3) (cb : Combine) (a b : Opd) : Statement (.cmp h cond w pd cb a b) := of_raw rfl
theorem fadd (h : Hdr) (rm : Rnd) (d : Dst) (a b : Opd) : Statement (.fadd h rm d a b) := of_raw rfl
theorem fsub (h : Hdr) (rm : Rnd) (d : Dst) (a b : Opd) : Statement (.fsub h rm d a b) := of_raw rfl
theorem fmul (h : Hdr) (rm : Rnd) (d : Dst) (a b : Opd) : Statement (.fmul h rm d a b) := of_raw rfl
theorem fmin (h : Hdr) (d : Dst) (a b : Opd) : Statement (.fmin h d a b) := of_raw rfl
theorem fmax (h : Hdr) (d : Dst) (a b : Opd) : Statement (.fmax h d a b) := of_raw rfl
theorem fminp (h : Hdr) (d : Dst) (a b : Opd) : Statement (.fminp h d a b) := of_raw rfl
theorem fmaxp (h : Hdr) (d : Dst) (a b : Opd) : Statement (.fmaxp h d a b) := of_raw rfl
theorem fscale (h : Hdr) (rm : Rnd) (d : Dst) (a b : Opd) : Statement (.fscale h rm d a b) := of_raw rfl
theorem hadd2 (h : Hdr) (hf : Half) (rm : Rnd) (d : Dst) (a b : Opd) : Statement (.hadd2 h hf rm d a b) := of_raw rfl
theorem hsub2 (h : Hdr) (hf : Half) (rm : Rnd) (d : Dst) (a b : Opd) : Statement (.hsub2 h hf rm d a b) := of_raw rfl
theorem hmul2 (h : Hdr) (hf : Half) (rm : Rnd) (d : Dst) (a b : Opd) : Statement (.hmul2 h hf rm d a b) := of_raw rfl
theorem hmin2 (h : Hdr) (hf : Half) (d : Dst) (a b : Opd) : Statement (.hmin2 h hf d a b) := of_raw rfl
theorem hmax2 (h : Hdr) (hf : Half) (d : Dst) (a b : Opd) : Statement (.hmax2 h hf d a b) := of_raw rfl
theorem ffma (h : Hdr) (rm : Rnd) (d : Dst) (a b c : Opd) : Statement (.ffma h rm d a b c) := of_raw rfl
theorem ffms (h : Hdr) (rm : Rnd) (d : Dst) (a b c : Opd) : Statement (.ffms h rm d a b c) := of_raw rfl
theorem fnma (h : Hdr) (rm : Rnd) (d : Dst) (a b c : Opd) : Statement (.fnma h rm d a b c) := of_raw rfl
theorem hfma2 (h : Hdr) (hf : Half) (rm : Rnd) (d : Dst) (a b c : Opd) : Statement (.hfma2 h hf rm d a b c) := of_raw rfl
theorem fabs (h : Hdr) (d : Dst) (a : Opd) : Statement (.fabs h d a) := of_raw rfl
theorem fneg (h : Hdr) (d : Dst) (a : Opd) : Statement (.fneg h d a) := of_raw rfl
theorem frnd (h : Hdr) (rm : Rnd) (d : Dst) (a : Opd) : Statement (.frnd h rm d a) := of_raw rfl
theorem fclass (h : Hdr) (d : Dst) (a : Opd) : Statement (.fclass h d a) := of_raw rfl
theorem fsat (h : Hdr) (d : Dst) (a : Opd) : Statement (.fsat h d a) := of_raw rfl
theorem fcmp (h : Hdr) (cond : FCmpCond) (f : CmpFmt) (pd : BitVec 3) (cb : Combine) (a b : Opd) : Statement (.fcmp h cond f pd cb a b) := of_raw rfl
theorem cvt (h : Hdr) (p : CvtPair) (rm : Rnd) (d : Dst) (a : Opd) : Statement (.cvt h p rm d a) := of_raw rfl
theorem rcp (h : Hdr) (d : Dst) (a : Opd) : Statement (.rcp h d a) := of_raw rfl
theorem rsq (h : Hdr) (d : Dst) (a : Opd) : Statement (.rsq h d a) := of_raw rfl
theorem sqrt (h : Hdr) (d : Dst) (a : Opd) : Statement (.sqrt h d a) := of_raw rfl
theorem exp2 (h : Hdr) (d : Dst) (a : Opd) : Statement (.exp2 h d a) := of_raw rfl
theorem log2 (h : Hdr) (d : Dst) (a : Opd) : Statement (.log2 h d a) := of_raw rfl
theorem sinpi (h : Hdr) (d : Dst) (a : Opd) : Statement (.sinpi h d a) := of_raw rfl
theorem cospi (h : Hdr) (d : Dst) (a : Opd) : Statement (.cospi h d a) := of_raw rfl
theorem tanh (h : Hdr) (d : Dst) (a : Opd) : Statement (.tanh h d a) := of_raw rfl
theorem sigm (h : Hdr) (d : Dst) (a : Opd) : Statement (.sigm h d a) := of_raw rfl
theorem divf (h : Hdr) (d : Dst) (a b : Opd) : Statement (.divf h d a b) := of_raw rfl
theorem bra (h : Hdr) (off : Word) : Statement (.bra h off) := of_raw rfl
theorem brx (h : Hdr) (a : Opd) : Statement (.brx h a) := of_raw rfl
theorem call (h : Hdr) (off : Word) : Statement (.call h off) := of_raw rfl
theorem callx (h : Hdr) (a : Opd) : Statement (.callx h a) := of_raw rfl
theorem ret (h : Hdr) : Statement (.ret h) := of_raw rfl
theorem exit (h : Hdr) : Statement (.exit h) := of_raw rfl
theorem trap (h : Hdr) (a : Opd) : Statement (.trap h a) := of_raw rfl
theorem brk (h : Hdr) : Statement (.brk h) := of_raw rfl
theorem jset (h : Hdr) (j : BitVec 4) : Statement (.jset h j) := of_raw rfl
theorem jadd (h : Hdr) (j : BitVec 4) : Statement (.jadd h j) := of_raw rfl
theorem jclr (h : Hdr) (j : BitVec 4) : Statement (.jclr h j) := of_raw rfl
theorem waitj (h : Hdr) (j : BitVec 4) : Statement (.waitj h j) := of_raw rfl
theorem elect (h : Hdr) (p : BitVec 3) : Statement (.elect h p) := of_raw rfl
theorem sleepj (h : Hdr) (j : BitVec 4) : Statement (.sleepj h j) := of_raw rfl
theorem wakej (h : Hdr) (j : BitVec 4) : Statement (.wakej h j) := of_raw rfl
theorem strand (win : BitVec 2) (mask : BitVec 64) : Statement (.strand win mask) := of_raw rfl
theorem shfl (h : Hdr) (mode : ShflMode) (w : Width) (d : Dst) (a b : Opd) : Statement (.shfl h mode w d a b) := of_raw rfl
theorem lpush (h : Hdr) (d : Dst) (a b : Opd) (pc : Option (BitVec 3)) : Statement (.lpush h d a b pc) := of_raw rfl
theorem lpushWarp (h : Hdr) (d : Dst) (a b slot : Opd) : Statement (.lpushWarp h d a b slot) := of_raw rfl
theorem voteAny (h : Hdr) (pd : BitVec 3) (inv : Bool) (q : BitVec 3) : Statement (.voteAny h pd inv q) := of_raw rfl
theorem voteAll (h : Hdr) (pd : BitVec 3) (inv : Bool) (q : BitVec 3) : Statement (.voteAll h pd inv q) := of_raw rfl
theorem voteBallot (h : Hdr) (d : Dst) (inv : Bool) (q : BitVec 3) : Statement (.voteBallot h d inv q) := of_raw rfl
theorem voteEq (h : Hdr) (pd : BitVec 3) (a : Opd) : Statement (.voteEq h pd a) := of_raw rfl
theorem redx (h : Hdr) (op : RedOp) (w : Width) (d : Dst) (a : Opd) : Statement (.redx h op w d a) := of_raw rfl
theorem scanx (h : Hdr) (ex : Bool) (op : RedOp) (w : Width) (d : Dst) (a : Opd) : Statement (.scanx h ex op w d a) := of_raw rfl
theorem matchx (h : Hdr) (w : Width) (d : Dst) (a : Opd) : Statement (.matchx h w d a) := of_raw rfl
theorem ld (h : Hdr) (sz : MemSz) (o : Ord) (d : Dst) (r : BitVec 4) (b : Opd) : Statement (.ld h sz o d r b) := of_raw rfl
theorem st (h : Hdr) (sz : StSz) (o : Ord) (r : BitVec 4) (b c : Opd) : Statement (.st h sz o r b c) := of_raw rfl
theorem lds (h : Hdr) (sz : MemSz) (o : Ord) (d : Dst) (a b : Opd) : Statement (.lds h sz o d a b) := of_raw rfl
theorem sts (h : Hdr) (sz : StSz) (o : Ord) (a b c : Opd) : Statement (.sts h sz o a b c) := of_raw rfl
theorem ldx (h : Hdr) (sz : MemSz) (o : Ord) (core : BitVec 2) (d : Dst) (a b : Opd) : Statement (.ldx h sz o core d a b) := of_raw rfl
theorem stx (h : Hdr) (sz : StSz) (o : Ord) (core : BitVec 2) (a b c : Opd) : Statement (.stx h sz o core a b c) := of_raw rfl
theorem ldw (h : Hdr) (w : Width) (o : Ord) (d : Dst) (r : BitVec 4) (b : Opd) : Statement (.ldw h w o d r b) := of_raw rfl
theorem atom (g : Guard) (op : AtomOp) (w : Width) (o : AtomOrd) (sc : Scope) (d : Dst) (r : BitVec 4) (b c : Opd) : Statement (.atom g op w o sc d r b c) := of_raw rfl
theorem atoms (g : Guard) (op : AtomOp) (w : Width) (o : AtomOrd) (sc : Scope) (d : Dst) (a b c : Opd) : Statement (.atoms g op w o sc d a b c) := of_raw rfl
theorem fence (h : Hdr) (k : FenceKind) (sc : Scope) : Statement (.fence h k sc) := of_raw rfl
theorem tagq (h : Hdr) (d : Dst) (a : Opd) : Statement (.tagq h d a) := of_raw rfl
theorem tagi (h : Hdr) (a b c : Opd) : Statement (.tagi h a b c) := of_raw rfl
theorem tagx (h : Hdr) (a : Opd) : Statement (.tagx h a) := of_raw rfl
theorem cpy (h : Hdr) (out : Bool) (box : Option (BitVec 16 × BitVec 16)) (x : Bool) (clo : Option Opd) (a b : Opd) (r : DReg) : Statement (.cpy h out box x clo a b r) := of_raw rfl
theorem gath (h : Hdr) (x : Bool) (clo : Option Opd) (a b v : Opd) : Statement (.gath h x clo a b v) := of_raw rfl
theorem coll (h : Hdr) (x : Bool) (clo : Option Opd) (a b : Opd) : Statement (.coll h x clo a b) := of_raw rfl
theorem binit (h : Hdr) (x : Bool) (a b c : Opd) : Statement (.binit h x a b c) := of_raw rfl
theorem bexp (h : Hdr) (x : Bool) (a b c : Opd) : Statement (.bexp h x a b c) := of_raw rfl
theorem barv (h : Hdr) (x : Bool) (a b : Opd) : Statement (.barv h x a b) := of_raw rfl
theorem bwait (h : Hdr) (x : Bool) (a b par : Opd) : Statement (.bwait h x a b par) := of_raw rfl
theorem btest (h : Hdr) (x : Bool) (pd : BitVec 3) (a b par : Opd) : Statement (.btest h x pd a b par) := of_raw rfl
theorem trig (h : Hdr) : Statement (.trig h) := of_raw rfl
theorem mma (h : Hdr) (p : MatPair) (m n : Dim) (keep : Bool) (g : Gang) (a b : Opd) : Statement (.mma h p m n keep g a b) := of_raw rfl
theorem mmag (h : Hdr) (p : MatPair) (m n : Dim) (keep : Bool) (g : Gang) (a b v : Opd) : Statement (.mmag h p m n keep g a b v) := of_raw rfl
theorem acz (h : Hdr) : Statement (.acz h) := of_raw rfl
theorem acld (h : Hdr) (rns : Option Opd) (f : Option Fmt) (a : Opd) : Statement (.acld h rns f a) := of_raw rfl
theorem acst (h : Hdr) (rns : Bool) (rm : Rnd) (f : Option Fmt) (a : Opd) : Statement (.acst h rns rm f a) := of_raw rfl
theorem had (h : Hdr) (col : Bool) (a b : Opd) : Statement (.had h col a b) := of_raw rfl
theorem qnt (h : Hdr) (given isB : Bool) (f : Option Fmt) (a : Opd) : Statement (.qnt h given isB f a) := of_raw rfl
theorem snorm (h : Hdr) (isB : Bool) (v m : Opd) : Statement (.snorm h isB v m) := of_raw rfl
theorem salias (g : Guard) (toff : BitVec 23) (va vb : Opd) : Statement (.salias g toff va vb) := of_raw rfl
theorem spot (g : Guard) (toff : BitVec 23) (m n : Dim) (bat : Batch) (gang : Gang) (a b : Opd) (c : SpotGroup) : Statement (.spot g toff m n bat gang a b c) := of_raw rfl
theorem sstat (h : Hdr) (d : StatGroup) : Statement (.sstat h d) := of_raw rfl
theorem srr (h : Hdr) (r : SReg) (d : Dst) : Statement (.srr h r d) := of_raw rfl
theorem srw (h : Hdr) (r : SReg) (b : Opd) : Statement (.srw h r b) := of_raw rfl
theorem cede (h : Hdr) : Statement (.cede h) := of_raw rfl
theorem cedeHold (h : Hdr) : Statement (.cedeHold h) := of_raw rfl
theorem cedeOpen (h : Hdr) : Statement (.cedeOpen h) := of_raw rfl
theorem saveHold (h : Hdr) (a b : Opd) : Statement (.saveHold h a b) := of_raw rfl
theorem saveScr (h : Hdr) (a b : Opd) : Statement (.saveScr h a b) := of_raw rfl
theorem saveAcc (h : Hdr) : Statement (.saveAcc h) := of_raw rfl
theorem saveTag (h : Hdr) : Statement (.saveTag h) := of_raw rfl
theorem trapretRestart (h : Hdr) : Statement (.trapretRestart h) := of_raw rfl
theorem trapretSkip (h : Hdr) : Statement (.trapretSkip h) := of_raw rfl
theorem watchOff (h : Hdr) (c : Opd) : Statement (.watchOff h c) := of_raw rfl
theorem watchW (h : Hdr) (a b c : Opd) : Statement (.watchW h a b c) := of_raw rfl
theorem watchRw (h : Hdr) (a b c : Opd) : Statement (.watchRw h a b c) := of_raw rfl
theorem profStall (h : Hdr) (a b c : Opd) : Statement (.profStall h a b c) := of_raw rfl
theorem profStop (h : Hdr) : Statement (.profStop h) := of_raw rfl
theorem profMem (h : Hdr) (a b c : Opd) : Statement (.profMem h a b c) := of_raw rfl
theorem nop (h : Hdr) : Statement (.nop h) := of_raw rfl
theorem thset (h : Hdr) (d : Dst) (a b : Opd) : Statement (.thset h d a b) := of_raw rfl
theorem thdrop (h : Hdr) (a : Opd) : Statement (.thdrop h a) := of_raw rfl
theorem addC (d : Dst8) (a b : Opd8) : Statement (.addC d a b) := of_compact rfl (compact_length _ _ _ _)
theorem subC (d : Dst8) (a b : Opd8) : Statement (.subC d a b) := of_compact rfl (compact_length _ _ _ _)
theorem mulC (d : Dst8) (a b : Opd8) : Statement (.mulC d a b) := of_compact rfl (compact_length _ _ _ _)
theorem mulhC (d : Dst8) (a b : Opd8) : Statement (.mulhC d a b) := of_compact rfl (compact_length _ _ _ _)
theorem mulhnC (d : Dst8) (a b : Opd8) : Statement (.mulhnC d a b) := of_compact rfl (compact_length _ _ _ _)
theorem minC (d : Dst8) (a b : Opd8) : Statement (.minC d a b) := of_compact rfl (compact_length _ _ _ _)
theorem maxC (d : Dst8) (a b : Opd8) : Statement (.maxC d a b) := of_compact rfl (compact_length _ _ _ _)
theorem minnC (d : Dst8) (a b : Opd8) : Statement (.minnC d a b) := of_compact rfl (compact_length _ _ _ _)
theorem maxnC (d : Dst8) (a b : Opd8) : Statement (.maxnC d a b) := of_compact rfl (compact_length _ _ _ _)
theorem andC (d : Dst8) (a b : Opd8) : Statement (.andC d a b) := of_compact rfl (compact_length _ _ _ _)
theorem orC (d : Dst8) (a b : Opd8) : Statement (.orC d a b) := of_compact rfl (compact_length _ _ _ _)
theorem xorC (d : Dst8) (a b : Opd8) : Statement (.xorC d a b) := of_compact rfl (compact_length _ _ _ _)
theorem andnC (d : Dst8) (a b : Opd8) : Statement (.andnC d a b) := of_compact rfl (compact_length _ _ _ _)
theorem shlC (d : Dst8) (a b : Opd8) : Statement (.shlC d a b) := of_compact rfl (compact_length _ _ _ _)
theorem shrC (d : Dst8) (a b : Opd8) : Statement (.shrC d a b) := of_compact rfl (compact_length _ _ _ _)
theorem sarC (d : Dst8) (a b : Opd8) : Statement (.sarC d a b) := of_compact rfl (compact_length _ _ _ _)
theorem rolC (d : Dst8) (a b : Opd8) : Statement (.rolC d a b) := of_compact rfl (compact_length _ _ _ _)
theorem rorC (d : Dst8) (a b : Opd8) : Statement (.rorC d a b) := of_compact rfl (compact_length _ _ _ _)
theorem add64C (d : Dst8) (a b : Opd8) : Statement (.add64C d a b) := of_compact rfl (compact_length _ _ _ _)
theorem sub64C (d : Dst8) (a b : Opd8) : Statement (.sub64C d a b) := of_compact rfl (compact_length _ _ _ _)
theorem movC (d : Dst8) (a : Opd8) : Statement (.movC d a) := of_compact rfl (compact_length _ _ _ _)
theorem mov64C (d : Dst8) (a : Opd8) : Statement (.mov64C d a) := of_compact rfl (compact_length _ _ _ _)
theorem negC (d : Dst8) (a : Opd8) : Statement (.negC d a) := of_compact rfl (compact_length _ _ _ _)
theorem notC (d : Dst8) (a : Opd8) : Statement (.notC d a) := of_compact rfl (compact_length _ _ _ _)
theorem popcC (d : Dst8) (a : Opd8) : Statement (.popcC d a) := of_compact rfl (compact_length _ _ _ _)
theorem clzC (d : Dst8) (a : Opd8) : Statement (.clzC d a) := of_compact rfl (compact_length _ _ _ _)
theorem ctzC (d : Dst8) (a : Opd8) : Statement (.ctzC d a) := of_compact rfl (compact_length _ _ _ _)
theorem sext8C (d : Dst8) (a : Opd8) : Statement (.sext8C d a) := of_compact rfl (compact_length _ _ _ _)
theorem sext16C (d : Dst8) (a : Opd8) : Statement (.sext16C d a) := of_compact rfl (compact_length _ _ _ _)
theorem zext8C (d : Dst8) (a : Opd8) : Statement (.zext8C d a) := of_compact rfl (compact_length _ _ _ _)
theorem zext16C (d : Dst8) (a : Opd8) : Statement (.zext16C d a) := of_compact rfl (compact_length _ _ _ _)
theorem faddC (d : Dst8) (a b : Opd8) : Statement (.faddC d a b) := of_compact rfl (compact_length _ _ _ _)
theorem fsubC (d : Dst8) (a b : Opd8) : Statement (.fsubC d a b) := of_compact rfl (compact_length _ _ _ _)
theorem fmulC (d : Dst8) (a b : Opd8) : Statement (.fmulC d a b) := of_compact rfl (compact_length _ _ _ _)
theorem fminC (d : Dst8) (a b : Opd8) : Statement (.fminC d a b) := of_compact rfl (compact_length _ _ _ _)
theorem fmaxC (d : Dst8) (a b : Opd8) : Statement (.fmaxC d a b) := of_compact rfl (compact_length _ _ _ _)
theorem fminpC (d : Dst8) (a b : Opd8) : Statement (.fminpC d a b) := of_compact rfl (compact_length _ _ _ _)
theorem fmaxpC (d : Dst8) (a b : Opd8) : Statement (.fmaxpC d a b) := of_compact rfl (compact_length _ _ _ _)
theorem fscaleC (d : Dst8) (a b : Opd8) : Statement (.fscaleC d a b) := of_compact rfl (compact_length _ _ _ _)
theorem hadd2F16C (d : Dst8) (a b : Opd8) : Statement (.hadd2F16C d a b) := of_compact rfl (compact_length _ _ _ _)
theorem hsub2F16C (d : Dst8) (a b : Opd8) : Statement (.hsub2F16C d a b) := of_compact rfl (compact_length _ _ _ _)
theorem hmul2F16C (d : Dst8) (a b : Opd8) : Statement (.hmul2F16C d a b) := of_compact rfl (compact_length _ _ _ _)
theorem hadd2Bf16C (d : Dst8) (a b : Opd8) : Statement (.hadd2Bf16C d a b) := of_compact rfl (compact_length _ _ _ _)
theorem hsub2Bf16C (d : Dst8) (a b : Opd8) : Statement (.hsub2Bf16C d a b) := of_compact rfl (compact_length _ _ _ _)
theorem hmul2Bf16C (d : Dst8) (a b : Opd8) : Statement (.hmul2Bf16C d a b) := of_compact rfl (compact_length _ _ _ _)
theorem fabsC (d : Dst8) (a : Opd8) : Statement (.fabsC d a) := of_compact rfl (compact_length _ _ _ _)
theorem fnegC (d : Dst8) (a : Opd8) : Statement (.fnegC d a) := of_compact rfl (compact_length _ _ _ _)
theorem rcpC (d : Dst8) (a : Opd8) : Statement (.rcpC d a) := of_compact rfl (compact_length _ _ _ _)
theorem rsqC (d : Dst8) (a : Opd8) : Statement (.rsqC d a) := of_compact rfl (compact_length _ _ _ _)
theorem sqrtC (d : Dst8) (a : Opd8) : Statement (.sqrtC d a) := of_compact rfl (compact_length _ _ _ _)
theorem exp2C (d : Dst8) (a : Opd8) : Statement (.exp2C d a) := of_compact rfl (compact_length _ _ _ _)
theorem log2C (d : Dst8) (a : Opd8) : Statement (.log2C d a) := of_compact rfl (compact_length _ _ _ _)
theorem tanhC (d : Dst8) (a : Opd8) : Statement (.tanhC d a) := of_compact rfl (compact_length _ _ _ _)
theorem sigmC (d : Dst8) (a : Opd8) : Statement (.sigmC d a) := of_compact rfl (compact_length _ _ _ _)
theorem divfC (d : Dst8) (a b : Opd8) : Statement (.divfC d a b) := of_compact rfl (compact_length _ _ _ _)
theorem cvtF32I32C (d : Dst8) (a : Opd8) : Statement (.cvtF32I32C d a) := of_compact rfl (compact_length _ _ _ _)
theorem cvtI32F32C (d : Dst8) (a : Opd8) : Statement (.cvtI32F32C d a) := of_compact rfl (compact_length _ _ _ _)
theorem cvtF32F16C (d : Dst8) (a : Opd8) : Statement (.cvtF32F16C d a) := of_compact rfl (compact_length _ _ _ _)
theorem cvtF16F32C (d : Dst8) (a : Opd8) : Statement (.cvtF16F32C d a) := of_compact rfl (compact_length _ _ _ _)
theorem shflIdxC (d : Dst8) (a b : Opd8) : Statement (.shflIdxC d a b) := of_compact rfl (compact_length _ _ _ _)
theorem shflXorC (d : Dst8) (a b : Opd8) : Statement (.shflXorC d a b) := of_compact rfl (compact_length _ _ _ _)
theorem braC (off : BitVec 24) : Statement (.braC off) := of_compact rfl (bra_length off)
theorem exitC : Statement .exitC := of_compact rfl rfl
theorem fetchReturn (q : Nat) : Statement (.fetchReturn q) := of_raw rfl
theorem sfuResult (id : Nat) : Statement (.sfuResult id) := of_raw rfl
theorem loadResult (id : Nat) : Statement (.loadResult id) := of_raw rfl
theorem atomicResult (id : Nat) : Statement (.atomicResult id) := of_raw rfl
theorem tagqResult (id : Nat) : Statement (.tagqResult id) := of_raw rfl
theorem matrixUnitDone (id : Nat) : Statement (.matrixUnitDone id) := of_raw rfl
theorem thsetComplete (id : Nat) : Statement (.thsetComplete id) := of_raw rfl
theorem translationWalkDone (die vdev : Nat) (va : Dword) : Statement (.translationWalkDone die vdev va) := of_raw rfl
theorem emulationDone (id : Nat) : Statement (.emulationDone id) := of_raw rfl
theorem runAheadIssue (w : Nat) : Statement (.runAheadIssue w) := of_raw rfl
theorem windowFill (q : Nat) : Statement (.windowFill q) := of_raw rfl
theorem windowExchange (q : Nat) : Statement (.windowExchange q) := of_raw rfl
theorem windowExchangeDone (q : Nat) : Statement (.windowExchangeDone q) := of_raw rfl
theorem pageService (vdev : Nat) (fseq : Word) (leaves : List (Dword × Dword)) (ok : Bool) : Statement (.pageService vdev fseq leaves ok) := of_raw rfl
theorem engineJobStart (tract job : Nat) : Statement (.engineJobStart tract job) := of_raw rfl
theorem engineJobAccess (tract job n : Nat) : Statement (.engineJobAccess tract job n) := of_raw rfl
theorem engineJobComplete (tract job : Nat) : Statement (.engineJobComplete tract job) := of_raw rfl
theorem launchRecord (src : Source) (rec : List Dword) : Statement (.launchRecord src rec) := of_raw rfl
theorem kick (vdev n : Nat) (tail : BitVec 16) : Statement (.kick vdev n tail) := of_raw rfl
theorem launchFrame (port : Nat) (mac : BitVec 48) (payload : List Dword) : Statement (.launchFrame port mac payload) := of_raw rfl
theorem dispatchParcel (vdev : Nat) : Statement (.dispatchParcel vdev) := of_raw rfl
theorem stagingDone (vdev : Nat) (lseq : Word) (pseq : Nat) : Statement (.stagingDone vdev lseq pseq) := of_raw rfl
theorem parcelDone (vdev : Nat) (lseq : Word) (pseq : Nat) : Statement (.parcelDone vdev lseq pseq) := of_raw rfl
theorem overrun (vdev : Nat) (lseq : Word) (pseq : Nat) : Statement (.overrun vdev lseq pseq) := of_raw rfl
theorem hang (vdev : Nat) (lseq : Word) (pseq : Nat) : Statement (.hang vdev lseq pseq) := of_raw rfl
theorem sliceEnd (vdev : Nat) : Statement (.sliceEnd vdev) := of_raw rfl
theorem sliceStart (vdev : Nat) : Statement (.sliceStart vdev) := of_raw rfl
theorem preemptHandlerEntry (w : Nat) : Statement (.preemptHandlerEntry w) := of_raw rfl
theorem forcedSave (w : Nat) : Statement (.forcedSave w) := of_raw rfl
theorem resurveyStart (die : Nat) : Statement (.resurveyStart die) := of_raw rfl
theorem resurveyScanEnd (core : Nat) (pass : Bool) : Statement (.resurveyScanEnd core pass) := of_raw rfl
theorem stallSample (q : Nat) : Statement (.stallSample q) := of_raw rfl
theorem invalidatePage (vdev : Nat) (va : Dword) (entry : Option Dword) : Statement (.invalidatePage vdev va entry) := of_raw rfl
theorem invalidationComplete (vdev : Nat) (va : Dword) : Statement (.invalidationComplete vdev va) := of_raw rfl
theorem migrationCopyDone (vdev : Nat) (va : Dword) (tier : BitVec 2) (frame : BitVec 48) : Statement (.migrationCopyDone vdev va tier frame) := of_raw rfl
theorem frameFree (tier : BitVec 2) (frame : BitVec 48) (big : Bool) : Statement (.frameFree tier frame big) := of_raw rfl
theorem scrubDone (tier : BitVec 2) (frame : BitVec 48) : Statement (.scrubDone tier frame) := of_raw rfl
theorem unitFailing (cxl : Bool) (unit : Nat) : Statement (.unitFailing cxl unit) := of_raw rfl
theorem evacuationDone (cxl : Bool) : Statement (.evacuationDone cxl) := of_raw rfl
theorem swathStart (cxl : Bool) : Statement (.swathStart cxl) := of_raw rfl
theorem swathComplete (cxl : Bool) (swath : Nat) : Statement (.swathComplete cxl swath) := of_raw rfl
theorem parityWalk (group : Nat) : Statement (.parityWalk group) := of_raw rfl
theorem partitionWrite (core : Nat) (own div : Dword) : Statement (.partitionWrite core own div) := of_raw rfl
theorem contractWrite (c : List Dword) : Statement (.contractWrite c) := of_raw rfl
theorem registerWrite (vdev : Nat) (r : FeReg) (v : Dword) : Statement (.registerWrite vdev r v) := of_raw rfl
theorem haltGroup (vdev : Nat) (lseq : Word) (g : Nat) : Statement (.haltGroup vdev lseq g) := of_raw rfl
theorem edit (w : Nat) (e : Edit) : Statement (.edit w e) := of_raw rfl
theorem releaseGroup (vdev : Nat) (lseq : Word) (g : Nat) : Statement (.releaseGroup vdev lseq g) := of_raw rfl
theorem releaseThread (vdev : Nat) (fseq : Word) : Statement (.releaseThread vdev fseq) := of_raw rfl
theorem precopyRound (vdev : Nat) (pages : List Dword) : Statement (.precopyRound vdev pages) := of_raw rfl
theorem migrationStop (vdev : Nat) : Statement (.migrationStop vdev) := of_raw rfl
theorem migrationResume (c : List Dword) (queues : List (Dword × Dword)) (pend : Word) (rec : List Dword) : Statement (.migrationResume c queues pend rec) := of_raw rfl
theorem flitReceived (port : Nat) (seq : BitVec 24) (good : Bool) : Statement (.flitReceived port seq good) := of_raw rfl
theorem portFailure (port : Nat) : Statement (.portFailure port) := of_raw rfl
theorem remoteRequest (peer : BitVec 16) (vdev : Nat) (k : RemoteKind) (va : Dword) (n : Nat) (data : List Byte) : Statement (.remoteRequest peer vdev k va n data) := of_raw rfl
theorem collContribution (tract job member : Nat) (data : List Byte) : Statement (.collContribution tract job member data) := of_raw rfl
theorem hostWrite (vdev : Nat) (va : Dword) (data : List Byte) : Statement (.hostWrite vdev va data) := of_raw rfl
theorem hostRead (vdev : Nat) (kickPage : Bool) (va : Dword) (n : Nat) : Statement (.hostRead vdev kickPage va n) := of_raw rfl
theorem nvmeTransfer (port : Nat) (toDevice : Bool) (block : Nat) (vdev : Nat) (va : Dword) (n : Nat) : Statement (.nvmeTransfer port toDevice block vdev va n) := of_raw rfl
theorem setPwrlim (watts : Nat) : Statement (.setPwrlim watts) := of_raw rfl
theorem ownershipTransfer (sig : List Byte) : Statement (.ownershipTransfer sig) := of_raw rfl
theorem ownerInstall (key sig : List Byte) : Statement (.ownerInstall key sig) := of_raw rfl
theorem getVersion : Statement .getVersion := of_raw rfl
theorem getCapabilities : Statement .getCapabilities := of_raw rfl
theorem negotiateAlgorithms (sm2 sm3 : Bool) : Statement (.negotiateAlgorithms sm2 sm3) := of_raw rfl
theorem getDigests : Statement .getDigests := of_raw rfl
theorem getCertificate (slot : Nat) : Statement (.getCertificate slot) := of_raw rfl
theorem challenge (nonce : List Byte) : Statement (.challenge nonce) := of_raw rfl
theorem getMeasurements (index : Option (BitVec 3)) : Statement (.getMeasurements index) := of_raw rfl
theorem powerOnReset (images : List BootImage) : Statement (.powerOnReset images) := of_raw rfl
theorem coolantFault (milliCelsius millilitres : Nat) : Statement (.coolantFault milliCelsius millilitres) := of_raw rfl
theorem junctionOvertemp (celsius : Nat) : Statement (.junctionOvertemp celsius) := of_raw rfl
theorem powerThrottle (q : Nat) (on : Bool) : Statement (.powerThrottle q on) := of_raw rfl
theorem debuggerAttach (vdev : Nat) : Statement (.debuggerAttach vdev) := of_raw rfl
theorem closureOperationPerformed (id : Nat) : Statement (.closureOperationPerformed id) := of_raw rfl
theorem storePerformed (id : Nat) : Statement (.storePerformed id) := of_raw rfl
theorem thdropAnswer (id : Nat) : Statement (.thdropAnswer id) := of_raw rfl
theorem watchSlotInstalled (id : Nat) : Statement (.watchSlotInstalled id) := of_raw rfl

end Sys2Proof.Laws.Enc
end

