-- ==== Sys2Proof/Laws/State.lean ====
section
/-! SUPPORT. The updates of `State`, field by field, so that no proof unfolds a record update; what a read of a warp, a quadrant, a
core, a contract or a byte gives after each of them; and that every operation over memory keeps its canonical form. -/

namespace Sys2Proof.Machine

section Fields
variable (s : State)

/-! `setWarp` -/
@[simp] theorem State.setWarp_tick (g : Nat) (w : Warp) : (s.setWarp g w).tick = s.tick := rfl
@[simp] theorem State.setWarp_round (g : Nat) (w : Warp) : (s.setWarp g w).round = s.round := rfl
@[simp] theorem State.setWarp_pclk (g : Nat) (w : Warp) : (s.setWarp g w).pclk = s.pclk := rfl
@[simp] theorem State.setWarp_sched (g : Nat) (w : Warp) : (s.setWarp g w).sched = s.sched := rfl
@[simp] theorem State.setWarp_iss (g : Nat) (w : Warp) : (s.setWarp g w).iss = s.iss := rfl
@[simp] theorem State.setWarp_turn (g : Nat) (w : Warp) : (s.setWarp g w).turn = s.turn := rfl
@[simp] theorem State.setWarp_nextId (g : Nat) (w : Warp) : (s.setWarp g w).nextId = s.nextId := rfl
@[simp] theorem State.setWarp_freeCtr (g : Nat) (w : Warp) : (s.setWarp g w).freeCtr = s.freeCtr := rfl
@[simp] theorem State.setWarp_outbox (g : Nat) (w : Warp) : (s.setWarp g w).outbox = s.outbox := rfl
@[simp] theorem State.setWarp_mem (g : Nat) (w : Warp) : (s.setWarp g w).mem = s.mem := rfl
@[simp] theorem State.setWarp_badW (g : Nat) (w : Warp) : (s.setWarp g w).badW = s.badW := rfl
@[simp] theorem State.setWarp_badSec (g : Nat) (w : Warp) : (s.setWarp g w).badSec = s.badSec := rfl
@[simp] theorem State.setWarp_lost (g : Nat) (w : Warp) : (s.setWarp g w).lost = s.lost := rfl
@[simp] theorem State.setWarp_resident (g : Nat) (w : Warp) : (s.setWarp g w).resident = s.resident := rfl
@[simp] theorem State.setWarp_quads (g : Nat) (w : Warp) : (s.setWarp g w).quads = s.quads := rfl
@[simp] theorem State.setWarp_cores (g : Nat) (w : Warp) : (s.setWarp g w).cores = s.cores := rfl
@[simp] theorem State.setWarp_flights (g : Nat) (w : Warp) : (s.setWarp g w).flights = s.flights := rfl
@[simp] theorem State.setWarp_jobs (g : Nat) (w : Warp) : (s.setWarp g w).jobs = s.jobs := rfl
@[simp] theorem State.setWarp_runs (g : Nat) (w : Warp) : (s.setWarp g w).runs = s.runs := rfl
@[simp] theorem State.setWarp_contracts (g : Nat) (w : Warp) : (s.setWarp g w).contracts = s.contracts := rfl
@[simp] theorem State.setWarp_launches (g : Nat) (w : Warp) : (s.setWarp g w).launches = s.launches := rfl
@[simp] theorem State.setWarp_saved (g : Nat) (w : Warp) : (s.setWarp g w).saved = s.saved := rfl
@[simp] theorem State.setWarp_savedJobs (g : Nat) (w : Warp) : (s.setWarp g w).savedJobs = s.savedJobs := rfl
@[simp] theorem State.setWarp_larkarQ (g : Nat) (w : Warp) : (s.setWarp g w).larkarQ = s.larkarQ := rfl
@[simp] theorem State.setWarp_tlbs (g : Nat) (w : Warp) : (s.setWarp g w).tlbs = s.tlbs := rfl
@[simp] theorem State.setWarp_held (g : Nat) (w : Warp) : (s.setWarp g w).held = s.held := rfl
@[simp] theorem State.setWarp_inval (g : Nat) (w : Warp) : (s.setWarp g w).inval = s.inval := rfl
@[simp] theorem State.setWarp_hbm (g : Nat) (w : Warp) : (s.setWarp g w).hbm = s.hbm := rfl
@[simp] theorem State.setWarp_cxl (g : Nat) (w : Warp) : (s.setWarp g w).cxl = s.cxl := rfl
@[simp] theorem State.setWarp_scrub (g : Nat) (w : Warp) : (s.setWarp g w).scrub = s.scrub := rfl
@[simp] theorem State.setWarp_used (g : Nat) (w : Warp) : (s.setWarp g w).used = s.used := rfl
@[simp] theorem State.setWarp_extQ (g : Nat) (w : Warp) : (s.setWarp g w).extQ = s.extQ := rfl
@[simp] theorem State.setWarp_polMem (g : Nat) (w : Warp) : (s.setWarp g w).polMem = s.polMem := rfl
@[simp] theorem State.setWarp_ports (g : Nat) (w : Warp) : (s.setWarp g w).ports = s.ports := rfl
@[simp] theorem State.setWarp_nvme (g : Nat) (w : Warp) : (s.setWarp g w).nvme = s.nvme := rfl
@[simp] theorem State.setWarp_booted (g : Nat) (w : Warp) : (s.setWarp g w).booted = s.booted := rfl
@[simp] theorem State.setWarp_bootSrc (g : Nat) (w : Warp) : (s.setWarp g w).bootSrc = s.bootSrc := rfl
@[simp] theorem State.setWarp_msmt (g : Nat) (w : Warp) : (s.setWarp g w).msmt = s.msmt := rfl
@[simp] theorem State.setWarp_ownerKey (g : Nat) (w : Warp) : (s.setWarp g w).ownerKey = s.ownerKey := rfl
@[simp] theorem State.setWarp_owned (g : Nat) (w : Warp) : (s.setWarp g w).owned = s.owned := rfl
@[simp] theorem State.setWarp_transfer (g : Nat) (w : Warp) : (s.setWarp g w).transfer = s.transfer := rfl
@[simp] theorem State.setWarp_spdmVersion (g : Nat) (w : Warp) : (s.setWarp g w).spdmVersion = s.spdmVersion := rfl
@[simp] theorem State.setWarp_spdmCaps (g : Nat) (w : Warp) : (s.setWarp g w).spdmCaps = s.spdmCaps := rfl
@[simp] theorem State.setWarp_spdmAlgs (g : Nat) (w : Warp) : (s.setWarp g w).spdmAlgs = s.spdmAlgs := rfl
@[simp] theorem State.setWarp_pwrlim (g : Nat) (w : Warp) : (s.setWarp g w).pwrlim = s.pwrlim := rfl
@[simp] theorem State.setWarp_pwrNext (g : Nat) (w : Warp) : (s.setWarp g w).pwrNext = s.pwrNext := rfl
@[simp] theorem State.setWarp_pwrOld (g : Nat) (w : Warp) : (s.setWarp g w).pwrOld = s.pwrOld := rfl
@[simp] theorem State.setWarp_coolantBad (g : Nat) (w : Warp) : (s.setWarp g w).coolantBad = s.coolantBad := rfl
@[simp] theorem State.setWarp_coolantLog (g : Nat) (w : Warp) : (s.setWarp g w).coolantLog = s.coolantLog := rfl
@[simp] theorem State.setWarp_pcieUp (g : Nat) (w : Warp) : (s.setWarp g w).pcieUp = s.pcieUp := rfl
@[simp] theorem State.setWarp_stopped (g : Nat) (w : Warp) : (s.setWarp g w).stopped = s.stopped := rfl
@[simp] theorem State.setWarp_rotate (g : Nat) (w : Warp) : (s.setWarp g w).rotate = s.rotate := rfl

/-! `setQuad` -/
@[simp] theorem State.setQuad_tick (q : Nat) (x : Quad) : (s.setQuad q x).tick = s.tick := rfl
@[simp] theorem State.setQuad_round (q : Nat) (x : Quad) : (s.setQuad q x).round = s.round := rfl
@[simp] theorem State.setQuad_pclk (q : Nat) (x : Quad) : (s.setQuad q x).pclk = s.pclk := rfl
@[simp] theorem State.setQuad_sched (q : Nat) (x : Quad) : (s.setQuad q x).sched = s.sched := rfl
@[simp] theorem State.setQuad_iss (q : Nat) (x : Quad) : (s.setQuad q x).iss = s.iss := rfl
@[simp] theorem State.setQuad_turn (q : Nat) (x : Quad) : (s.setQuad q x).turn = s.turn := rfl
@[simp] theorem State.setQuad_nextId (q : Nat) (x : Quad) : (s.setQuad q x).nextId = s.nextId := rfl
@[simp] theorem State.setQuad_freeCtr (q : Nat) (x : Quad) : (s.setQuad q x).freeCtr = s.freeCtr := rfl
@[simp] theorem State.setQuad_outbox (q : Nat) (x : Quad) : (s.setQuad q x).outbox = s.outbox := rfl
@[simp] theorem State.setQuad_mem (q : Nat) (x : Quad) : (s.setQuad q x).mem = s.mem := rfl
@[simp] theorem State.setQuad_badW (q : Nat) (x : Quad) : (s.setQuad q x).badW = s.badW := rfl
@[simp] theorem State.setQuad_badSec (q : Nat) (x : Quad) : (s.setQuad q x).badSec = s.badSec := rfl
@[simp] theorem State.setQuad_lost (q : Nat) (x : Quad) : (s.setQuad q x).lost = s.lost := rfl
@[simp] theorem State.setQuad_warps (q : Nat) (x : Quad) : (s.setQuad q x).warps = s.warps := rfl
@[simp] theorem State.setQuad_resident (q : Nat) (x : Quad) : (s.setQuad q x).resident = s.resident := rfl
@[simp] theorem State.setQuad_cores (q : Nat) (x : Quad) : (s.setQuad q x).cores = s.cores := rfl
@[simp] theorem State.setQuad_flights (q : Nat) (x : Quad) : (s.setQuad q x).flights = s.flights := rfl
@[simp] theorem State.setQuad_jobs (q : Nat) (x : Quad) : (s.setQuad q x).jobs = s.jobs := rfl
@[simp] theorem State.setQuad_runs (q : Nat) (x : Quad) : (s.setQuad q x).runs = s.runs := rfl
@[simp] theorem State.setQuad_contracts (q : Nat) (x : Quad) : (s.setQuad q x).contracts = s.contracts := rfl
@[simp] theorem State.setQuad_launches (q : Nat) (x : Quad) : (s.setQuad q x).launches = s.launches := rfl
@[simp] theorem State.setQuad_saved (q : Nat) (x : Quad) : (s.setQuad q x).saved = s.saved := rfl
@[simp] theorem State.setQuad_savedJobs (q : Nat) (x : Quad) : (s.setQuad q x).savedJobs = s.savedJobs := rfl
@[simp] theorem State.setQuad_larkarQ (q : Nat) (x : Quad) : (s.setQuad q x).larkarQ = s.larkarQ := rfl
@[simp] theorem State.setQuad_tlbs (q : Nat) (x : Quad) : (s.setQuad q x).tlbs = s.tlbs := rfl
@[simp] theorem State.setQuad_held (q : Nat) (x : Quad) : (s.setQuad q x).held = s.held := rfl
@[simp] theorem State.setQuad_inval (q : Nat) (x : Quad) : (s.setQuad q x).inval = s.inval := rfl
@[simp] theorem State.setQuad_hbm (q : Nat) (x : Quad) : (s.setQuad q x).hbm = s.hbm := rfl
@[simp] theorem State.setQuad_cxl (q : Nat) (x : Quad) : (s.setQuad q x).cxl = s.cxl := rfl
@[simp] theorem State.setQuad_scrub (q : Nat) (x : Quad) : (s.setQuad q x).scrub = s.scrub := rfl
@[simp] theorem State.setQuad_used (q : Nat) (x : Quad) : (s.setQuad q x).used = s.used := rfl
@[simp] theorem State.setQuad_extQ (q : Nat) (x : Quad) : (s.setQuad q x).extQ = s.extQ := rfl
@[simp] theorem State.setQuad_polMem (q : Nat) (x : Quad) : (s.setQuad q x).polMem = s.polMem := rfl
@[simp] theorem State.setQuad_ports (q : Nat) (x : Quad) : (s.setQuad q x).ports = s.ports := rfl
@[simp] theorem State.setQuad_nvme (q : Nat) (x : Quad) : (s.setQuad q x).nvme = s.nvme := rfl
@[simp] theorem State.setQuad_booted (q : Nat) (x : Quad) : (s.setQuad q x).booted = s.booted := rfl
@[simp] theorem State.setQuad_bootSrc (q : Nat) (x : Quad) : (s.setQuad q x).bootSrc = s.bootSrc := rfl
@[simp] theorem State.setQuad_msmt (q : Nat) (x : Quad) : (s.setQuad q x).msmt = s.msmt := rfl
@[simp] theorem State.setQuad_ownerKey (q : Nat) (x : Quad) : (s.setQuad q x).ownerKey = s.ownerKey := rfl
@[simp] theorem State.setQuad_owned (q : Nat) (x : Quad) : (s.setQuad q x).owned = s.owned := rfl
@[simp] theorem State.setQuad_transfer (q : Nat) (x : Quad) : (s.setQuad q x).transfer = s.transfer := rfl
@[simp] theorem State.setQuad_spdmVersion (q : Nat) (x : Quad) : (s.setQuad q x).spdmVersion = s.spdmVersion := rfl
@[simp] theorem State.setQuad_spdmCaps (q : Nat) (x : Quad) : (s.setQuad q x).spdmCaps = s.spdmCaps := rfl
@[simp] theorem State.setQuad_spdmAlgs (q : Nat) (x : Quad) : (s.setQuad q x).spdmAlgs = s.spdmAlgs := rfl
@[simp] theorem State.setQuad_pwrlim (q : Nat) (x : Quad) : (s.setQuad q x).pwrlim = s.pwrlim := rfl
@[simp] theorem State.setQuad_pwrNext (q : Nat) (x : Quad) : (s.setQuad q x).pwrNext = s.pwrNext := rfl
@[simp] theorem State.setQuad_pwrOld (q : Nat) (x : Quad) : (s.setQuad q x).pwrOld = s.pwrOld := rfl
@[simp] theorem State.setQuad_coolantBad (q : Nat) (x : Quad) : (s.setQuad q x).coolantBad = s.coolantBad := rfl
@[simp] theorem State.setQuad_coolantLog (q : Nat) (x : Quad) : (s.setQuad q x).coolantLog = s.coolantLog := rfl
@[simp] theorem State.setQuad_pcieUp (q : Nat) (x : Quad) : (s.setQuad q x).pcieUp = s.pcieUp := rfl
@[simp] theorem State.setQuad_stopped (q : Nat) (x : Quad) : (s.setQuad q x).stopped = s.stopped := rfl
@[simp] theorem State.setQuad_rotate (q : Nat) (x : Quad) : (s.setQuad q x).rotate = s.rotate := rfl

/-! `setCore` -/
@[simp] theorem State.setCore_tick (c : Nat) (x : Core) : (s.setCore c x).tick = s.tick := rfl
@[simp] theorem State.setCore_round (c : Nat) (x : Core) : (s.setCore c x).round = s.round := rfl
@[simp] theorem State.setCore_pclk (c : Nat) (x : Core) : (s.setCore c x).pclk = s.pclk := rfl
@[simp] theorem State.setCore_sched (c : Nat) (x : Core) : (s.setCore c x).sched = s.sched := rfl
@[simp] theorem State.setCore_iss (c : Nat) (x : Core) : (s.setCore c x).iss = s.iss := rfl
@[simp] theorem State.setCore_turn (c : Nat) (x : Core) : (s.setCore c x).turn = s.turn := rfl
@[simp] theorem State.setCore_nextId (c : Nat) (x : Core) : (s.setCore c x).nextId = s.nextId := rfl
@[simp] theorem State.setCore_freeCtr (c : Nat) (x : Core) : (s.setCore c x).freeCtr = s.freeCtr := rfl
@[simp] theorem State.setCore_outbox (c : Nat) (x : Core) : (s.setCore c x).outbox = s.outbox := rfl
@[simp] theorem State.setCore_mem (c : Nat) (x : Core) : (s.setCore c x).mem = s.mem := rfl
@[simp] theorem State.setCore_badW (c : Nat) (x : Core) : (s.setCore c x).badW = s.badW := rfl
@[simp] theorem State.setCore_badSec (c : Nat) (x : Core) : (s.setCore c x).badSec = s.badSec := rfl
@[simp] theorem State.setCore_lost (c : Nat) (x : Core) : (s.setCore c x).lost = s.lost := rfl
@[simp] theorem State.setCore_warps (c : Nat) (x : Core) : (s.setCore c x).warps = s.warps := rfl
@[simp] theorem State.setCore_resident (c : Nat) (x : Core) : (s.setCore c x).resident = s.resident := rfl
@[simp] theorem State.setCore_quads (c : Nat) (x : Core) : (s.setCore c x).quads = s.quads := rfl
@[simp] theorem State.setCore_flights (c : Nat) (x : Core) : (s.setCore c x).flights = s.flights := rfl
@[simp] theorem State.setCore_jobs (c : Nat) (x : Core) : (s.setCore c x).jobs = s.jobs := rfl
@[simp] theorem State.setCore_runs (c : Nat) (x : Core) : (s.setCore c x).runs = s.runs := rfl
@[simp] theorem State.setCore_contracts (c : Nat) (x : Core) : (s.setCore c x).contracts = s.contracts := rfl
@[simp] theorem State.setCore_launches (c : Nat) (x : Core) : (s.setCore c x).launches = s.launches := rfl
@[simp] theorem State.setCore_saved (c : Nat) (x : Core) : (s.setCore c x).saved = s.saved := rfl
@[simp] theorem State.setCore_savedJobs (c : Nat) (x : Core) : (s.setCore c x).savedJobs = s.savedJobs := rfl
@[simp] theorem State.setCore_larkarQ (c : Nat) (x : Core) : (s.setCore c x).larkarQ = s.larkarQ := rfl
@[simp] theorem State.setCore_tlbs (c : Nat) (x : Core) : (s.setCore c x).tlbs = s.tlbs := rfl
@[simp] theorem State.setCore_held (c : Nat) (x : Core) : (s.setCore c x).held = s.held := rfl
@[simp] theorem State.setCore_inval (c : Nat) (x : Core) : (s.setCore c x).inval = s.inval := rfl
@[simp] theorem State.setCore_hbm (c : Nat) (x : Core) : (s.setCore c x).hbm = s.hbm := rfl
@[simp] theorem State.setCore_cxl (c : Nat) (x : Core) : (s.setCore c x).cxl = s.cxl := rfl
@[simp] theorem State.setCore_scrub (c : Nat) (x : Core) : (s.setCore c x).scrub = s.scrub := rfl
@[simp] theorem State.setCore_used (c : Nat) (x : Core) : (s.setCore c x).used = s.used := rfl
@[simp] theorem State.setCore_extQ (c : Nat) (x : Core) : (s.setCore c x).extQ = s.extQ := rfl
@[simp] theorem State.setCore_polMem (c : Nat) (x : Core) : (s.setCore c x).polMem = s.polMem := rfl
@[simp] theorem State.setCore_ports (c : Nat) (x : Core) : (s.setCore c x).ports = s.ports := rfl
@[simp] theorem State.setCore_nvme (c : Nat) (x : Core) : (s.setCore c x).nvme = s.nvme := rfl
@[simp] theorem State.setCore_booted (c : Nat) (x : Core) : (s.setCore c x).booted = s.booted := rfl
@[simp] theorem State.setCore_bootSrc (c : Nat) (x : Core) : (s.setCore c x).bootSrc = s.bootSrc := rfl
@[simp] theorem State.setCore_msmt (c : Nat) (x : Core) : (s.setCore c x).msmt = s.msmt := rfl
@[simp] theorem State.setCore_ownerKey (c : Nat) (x : Core) : (s.setCore c x).ownerKey = s.ownerKey := rfl
@[simp] theorem State.setCore_owned (c : Nat) (x : Core) : (s.setCore c x).owned = s.owned := rfl
@[simp] theorem State.setCore_transfer (c : Nat) (x : Core) : (s.setCore c x).transfer = s.transfer := rfl
@[simp] theorem State.setCore_spdmVersion (c : Nat) (x : Core) : (s.setCore c x).spdmVersion = s.spdmVersion := rfl
@[simp] theorem State.setCore_spdmCaps (c : Nat) (x : Core) : (s.setCore c x).spdmCaps = s.spdmCaps := rfl
@[simp] theorem State.setCore_spdmAlgs (c : Nat) (x : Core) : (s.setCore c x).spdmAlgs = s.spdmAlgs := rfl
@[simp] theorem State.setCore_pwrlim (c : Nat) (x : Core) : (s.setCore c x).pwrlim = s.pwrlim := rfl
@[simp] theorem State.setCore_pwrNext (c : Nat) (x : Core) : (s.setCore c x).pwrNext = s.pwrNext := rfl
@[simp] theorem State.setCore_pwrOld (c : Nat) (x : Core) : (s.setCore c x).pwrOld = s.pwrOld := rfl
@[simp] theorem State.setCore_coolantBad (c : Nat) (x : Core) : (s.setCore c x).coolantBad = s.coolantBad := rfl
@[simp] theorem State.setCore_coolantLog (c : Nat) (x : Core) : (s.setCore c x).coolantLog = s.coolantLog := rfl
@[simp] theorem State.setCore_pcieUp (c : Nat) (x : Core) : (s.setCore c x).pcieUp = s.pcieUp := rfl
@[simp] theorem State.setCore_stopped (c : Nat) (x : Core) : (s.setCore c x).stopped = s.stopped := rfl
@[simp] theorem State.setCore_rotate (c : Nat) (x : Core) : (s.setCore c x).rotate = s.rotate := rfl

/-! `setContract` -/
@[simp] theorem State.setContract_tick (v : Nat) (x : Contract) : (s.setContract v x).tick = s.tick := rfl
@[simp] theorem State.setContract_round (v : Nat) (x : Contract) : (s.setContract v x).round = s.round := rfl
@[simp] theorem State.setContract_pclk (v : Nat) (x : Contract) : (s.setContract v x).pclk = s.pclk := rfl
@[simp] theorem State.setContract_sched (v : Nat) (x : Contract) : (s.setContract v x).sched = s.sched := rfl
@[simp] theorem State.setContract_iss (v : Nat) (x : Contract) : (s.setContract v x).iss = s.iss := rfl
@[simp] theorem State.setContract_turn (v : Nat) (x : Contract) : (s.setContract v x).turn = s.turn := rfl
@[simp] theorem State.setContract_nextId (v : Nat) (x : Contract) : (s.setContract v x).nextId = s.nextId := rfl
@[simp] theorem State.setContract_freeCtr (v : Nat) (x : Contract) : (s.setContract v x).freeCtr = s.freeCtr := rfl
@[simp] theorem State.setContract_outbox (v : Nat) (x : Contract) : (s.setContract v x).outbox = s.outbox := rfl
@[simp] theorem State.setContract_mem (v : Nat) (x : Contract) : (s.setContract v x).mem = s.mem := rfl
@[simp] theorem State.setContract_badW (v : Nat) (x : Contract) : (s.setContract v x).badW = s.badW := rfl
@[simp] theorem State.setContract_badSec (v : Nat) (x : Contract) : (s.setContract v x).badSec = s.badSec := rfl
@[simp] theorem State.setContract_lost (v : Nat) (x : Contract) : (s.setContract v x).lost = s.lost := rfl
@[simp] theorem State.setContract_warps (v : Nat) (x : Contract) : (s.setContract v x).warps = s.warps := rfl
@[simp] theorem State.setContract_resident (v : Nat) (x : Contract) : (s.setContract v x).resident = s.resident := rfl
@[simp] theorem State.setContract_quads (v : Nat) (x : Contract) : (s.setContract v x).quads = s.quads := rfl
@[simp] theorem State.setContract_cores (v : Nat) (x : Contract) : (s.setContract v x).cores = s.cores := rfl
@[simp] theorem State.setContract_flights (v : Nat) (x : Contract) : (s.setContract v x).flights = s.flights := rfl
@[simp] theorem State.setContract_jobs (v : Nat) (x : Contract) : (s.setContract v x).jobs = s.jobs := rfl
@[simp] theorem State.setContract_runs (v : Nat) (x : Contract) : (s.setContract v x).runs = s.runs := rfl
@[simp] theorem State.setContract_launches (v : Nat) (x : Contract) : (s.setContract v x).launches = s.launches := rfl
@[simp] theorem State.setContract_saved (v : Nat) (x : Contract) : (s.setContract v x).saved = s.saved := rfl
@[simp] theorem State.setContract_savedJobs (v : Nat) (x : Contract) : (s.setContract v x).savedJobs = s.savedJobs := rfl
@[simp] theorem State.setContract_larkarQ (v : Nat) (x : Contract) : (s.setContract v x).larkarQ = s.larkarQ := rfl
@[simp] theorem State.setContract_tlbs (v : Nat) (x : Contract) : (s.setContract v x).tlbs = s.tlbs := rfl
@[simp] theorem State.setContract_held (v : Nat) (x : Contract) : (s.setContract v x).held = s.held := rfl
@[simp] theorem State.setContract_inval (v : Nat) (x : Contract) : (s.setContract v x).inval = s.inval := rfl
@[simp] theorem State.setContract_hbm (v : Nat) (x : Contract) : (s.setContract v x).hbm = s.hbm := rfl
@[simp] theorem State.setContract_cxl (v : Nat) (x : Contract) : (s.setContract v x).cxl = s.cxl := rfl
@[simp] theorem State.setContract_scrub (v : Nat) (x : Contract) : (s.setContract v x).scrub = s.scrub := rfl
@[simp] theorem State.setContract_used (v : Nat) (x : Contract) : (s.setContract v x).used = s.used := rfl
@[simp] theorem State.setContract_extQ (v : Nat) (x : Contract) : (s.setContract v x).extQ = s.extQ := rfl
@[simp] theorem State.setContract_polMem (v : Nat) (x : Contract) : (s.setContract v x).polMem = s.polMem := rfl
@[simp] theorem State.setContract_ports (v : Nat) (x : Contract) : (s.setContract v x).ports = s.ports := rfl
@[simp] theorem State.setContract_nvme (v : Nat) (x : Contract) : (s.setContract v x).nvme = s.nvme := rfl
@[simp] theorem State.setContract_booted (v : Nat) (x : Contract) : (s.setContract v x).booted = s.booted := rfl
@[simp] theorem State.setContract_bootSrc (v : Nat) (x : Contract) : (s.setContract v x).bootSrc = s.bootSrc := rfl
@[simp] theorem State.setContract_msmt (v : Nat) (x : Contract) : (s.setContract v x).msmt = s.msmt := rfl
@[simp] theorem State.setContract_ownerKey (v : Nat) (x : Contract) : (s.setContract v x).ownerKey = s.ownerKey := rfl
@[simp] theorem State.setContract_owned (v : Nat) (x : Contract) : (s.setContract v x).owned = s.owned := rfl
@[simp] theorem State.setContract_transfer (v : Nat) (x : Contract) : (s.setContract v x).transfer = s.transfer := rfl
@[simp] theorem State.setContract_spdmVersion (v : Nat) (x : Contract) : (s.setContract v x).spdmVersion = s.spdmVersion := rfl
@[simp] theorem State.setContract_spdmCaps (v : Nat) (x : Contract) : (s.setContract v x).spdmCaps = s.spdmCaps := rfl
@[simp] theorem State.setContract_spdmAlgs (v : Nat) (x : Contract) : (s.setContract v x).spdmAlgs = s.spdmAlgs := rfl
@[simp] theorem State.setContract_pwrlim (v : Nat) (x : Contract) : (s.setContract v x).pwrlim = s.pwrlim := rfl
@[simp] theorem State.setContract_pwrNext (v : Nat) (x : Contract) : (s.setContract v x).pwrNext = s.pwrNext := rfl
@[simp] theorem State.setContract_pwrOld (v : Nat) (x : Contract) : (s.setContract v x).pwrOld = s.pwrOld := rfl
@[simp] theorem State.setContract_coolantBad (v : Nat) (x : Contract) : (s.setContract v x).coolantBad = s.coolantBad := rfl
@[simp] theorem State.setContract_coolantLog (v : Nat) (x : Contract) : (s.setContract v x).coolantLog = s.coolantLog := rfl
@[simp] theorem State.setContract_pcieUp (v : Nat) (x : Contract) : (s.setContract v x).pcieUp = s.pcieUp := rfl
@[simp] theorem State.setContract_stopped (v : Nat) (x : Contract) : (s.setContract v x).stopped = s.stopped := rfl
@[simp] theorem State.setContract_rotate (v : Nat) (x : Contract) : (s.setContract v x).rotate = s.rotate := rfl

/-! `emit` -/
@[simp] theorem State.emit_tick (o : Out) : (s.emit o).tick = s.tick := rfl
@[simp] theorem State.emit_round (o : Out) : (s.emit o).round = s.round := rfl
@[simp] theorem State.emit_pclk (o : Out) : (s.emit o).pclk = s.pclk := rfl
@[simp] theorem State.emit_sched (o : Out) : (s.emit o).sched = s.sched := rfl
@[simp] theorem State.emit_iss (o : Out) : (s.emit o).iss = s.iss := rfl
@[simp] theorem State.emit_turn (o : Out) : (s.emit o).turn = s.turn := rfl
@[simp] theorem State.emit_nextId (o : Out) : (s.emit o).nextId = s.nextId := rfl
@[simp] theorem State.emit_freeCtr (o : Out) : (s.emit o).freeCtr = s.freeCtr := rfl
@[simp] theorem State.emit_mem (o : Out) : (s.emit o).mem = s.mem := rfl
@[simp] theorem State.emit_badW (o : Out) : (s.emit o).badW = s.badW := rfl
@[simp] theorem State.emit_badSec (o : Out) : (s.emit o).badSec = s.badSec := rfl
@[simp] theorem State.emit_lost (o : Out) : (s.emit o).lost = s.lost := rfl
@[simp] theorem State.emit_warps (o : Out) : (s.emit o).warps = s.warps := rfl
@[simp] theorem State.emit_resident (o : Out) : (s.emit o).resident = s.resident := rfl
@[simp] theorem State.emit_quads (o : Out) : (s.emit o).quads = s.quads := rfl
@[simp] theorem State.emit_cores (o : Out) : (s.emit o).cores = s.cores := rfl
@[simp] theorem State.emit_flights (o : Out) : (s.emit o).flights = s.flights := rfl
@[simp] theorem State.emit_jobs (o : Out) : (s.emit o).jobs = s.jobs := rfl
@[simp] theorem State.emit_runs (o : Out) : (s.emit o).runs = s.runs := rfl
@[simp] theorem State.emit_contracts (o : Out) : (s.emit o).contracts = s.contracts := rfl
@[simp] theorem State.emit_launches (o : Out) : (s.emit o).launches = s.launches := rfl
@[simp] theorem State.emit_saved (o : Out) : (s.emit o).saved = s.saved := rfl
@[simp] theorem State.emit_savedJobs (o : Out) : (s.emit o).savedJobs = s.savedJobs := rfl
@[simp] theorem State.emit_larkarQ (o : Out) : (s.emit o).larkarQ = s.larkarQ := rfl
@[simp] theorem State.emit_tlbs (o : Out) : (s.emit o).tlbs = s.tlbs := rfl
@[simp] theorem State.emit_held (o : Out) : (s.emit o).held = s.held := rfl
@[simp] theorem State.emit_inval (o : Out) : (s.emit o).inval = s.inval := rfl
@[simp] theorem State.emit_hbm (o : Out) : (s.emit o).hbm = s.hbm := rfl
@[simp] theorem State.emit_cxl (o : Out) : (s.emit o).cxl = s.cxl := rfl
@[simp] theorem State.emit_scrub (o : Out) : (s.emit o).scrub = s.scrub := rfl
@[simp] theorem State.emit_used (o : Out) : (s.emit o).used = s.used := rfl
@[simp] theorem State.emit_extQ (o : Out) : (s.emit o).extQ = s.extQ := rfl
@[simp] theorem State.emit_polMem (o : Out) : (s.emit o).polMem = s.polMem := rfl
@[simp] theorem State.emit_ports (o : Out) : (s.emit o).ports = s.ports := rfl
@[simp] theorem State.emit_nvme (o : Out) : (s.emit o).nvme = s.nvme := rfl
@[simp] theorem State.emit_booted (o : Out) : (s.emit o).booted = s.booted := rfl
@[simp] theorem State.emit_bootSrc (o : Out) : (s.emit o).bootSrc = s.bootSrc := rfl
@[simp] theorem State.emit_msmt (o : Out) : (s.emit o).msmt = s.msmt := rfl
@[simp] theorem State.emit_ownerKey (o : Out) : (s.emit o).ownerKey = s.ownerKey := rfl
@[simp] theorem State.emit_owned (o : Out) : (s.emit o).owned = s.owned := rfl
@[simp] theorem State.emit_transfer (o : Out) : (s.emit o).transfer = s.transfer := rfl
@[simp] theorem State.emit_spdmVersion (o : Out) : (s.emit o).spdmVersion = s.spdmVersion := rfl
@[simp] theorem State.emit_spdmCaps (o : Out) : (s.emit o).spdmCaps = s.spdmCaps := rfl
@[simp] theorem State.emit_spdmAlgs (o : Out) : (s.emit o).spdmAlgs = s.spdmAlgs := rfl
@[simp] theorem State.emit_pwrlim (o : Out) : (s.emit o).pwrlim = s.pwrlim := rfl
@[simp] theorem State.emit_pwrNext (o : Out) : (s.emit o).pwrNext = s.pwrNext := rfl
@[simp] theorem State.emit_pwrOld (o : Out) : (s.emit o).pwrOld = s.pwrOld := rfl
@[simp] theorem State.emit_coolantBad (o : Out) : (s.emit o).coolantBad = s.coolantBad := rfl
@[simp] theorem State.emit_coolantLog (o : Out) : (s.emit o).coolantLog = s.coolantLog := rfl
@[simp] theorem State.emit_pcieUp (o : Out) : (s.emit o).pcieUp = s.pcieUp := rfl
@[simp] theorem State.emit_stopped (o : Out) : (s.emit o).stopped = s.stopped := rfl
@[simp] theorem State.emit_rotate (o : Out) : (s.emit o).rotate = s.rotate := rfl

/-! `setByte` -/
@[simp] theorem State.setByte_tick (k : Nat) (b : Byte) : (s.setByte k b).tick = s.tick := rfl
@[simp] theorem State.setByte_round (k : Nat) (b : Byte) : (s.setByte k b).round = s.round := rfl
@[simp] theorem State.setByte_pclk (k : Nat) (b : Byte) : (s.setByte k b).pclk = s.pclk := rfl
@[simp] theorem State.setByte_sched (k : Nat) (b : Byte) : (s.setByte k b).sched = s.sched := rfl
@[simp] theorem State.setByte_iss (k : Nat) (b : Byte) : (s.setByte k b).iss = s.iss := rfl
@[simp] theorem State.setByte_turn (k : Nat) (b : Byte) : (s.setByte k b).turn = s.turn := rfl
@[simp] theorem State.setByte_nextId (k : Nat) (b : Byte) : (s.setByte k b).nextId = s.nextId := rfl
@[simp] theorem State.setByte_freeCtr (k : Nat) (b : Byte) : (s.setByte k b).freeCtr = s.freeCtr := rfl
@[simp] theorem State.setByte_outbox (k : Nat) (b : Byte) : (s.setByte k b).outbox = s.outbox := rfl
@[simp] theorem State.setByte_badW (k : Nat) (b : Byte) : (s.setByte k b).badW = s.badW := rfl
@[simp] theorem State.setByte_badSec (k : Nat) (b : Byte) : (s.setByte k b).badSec = s.badSec := rfl
@[simp] theorem State.setByte_lost (k : Nat) (b : Byte) : (s.setByte k b).lost = s.lost := rfl
@[simp] theorem State.setByte_warps (k : Nat) (b : Byte) : (s.setByte k b).warps = s.warps := rfl
@[simp] theorem State.setByte_resident (k : Nat) (b : Byte) : (s.setByte k b).resident = s.resident := rfl
@[simp] theorem State.setByte_quads (k : Nat) (b : Byte) : (s.setByte k b).quads = s.quads := rfl
@[simp] theorem State.setByte_cores (k : Nat) (b : Byte) : (s.setByte k b).cores = s.cores := rfl
@[simp] theorem State.setByte_flights (k : Nat) (b : Byte) : (s.setByte k b).flights = s.flights := rfl
@[simp] theorem State.setByte_jobs (k : Nat) (b : Byte) : (s.setByte k b).jobs = s.jobs := rfl
@[simp] theorem State.setByte_runs (k : Nat) (b : Byte) : (s.setByte k b).runs = s.runs := rfl
@[simp] theorem State.setByte_contracts (k : Nat) (b : Byte) : (s.setByte k b).contracts = s.contracts := rfl
@[simp] theorem State.setByte_launches (k : Nat) (b : Byte) : (s.setByte k b).launches = s.launches := rfl
@[simp] theorem State.setByte_saved (k : Nat) (b : Byte) : (s.setByte k b).saved = s.saved := rfl
@[simp] theorem State.setByte_savedJobs (k : Nat) (b : Byte) : (s.setByte k b).savedJobs = s.savedJobs := rfl
@[simp] theorem State.setByte_larkarQ (k : Nat) (b : Byte) : (s.setByte k b).larkarQ = s.larkarQ := rfl
@[simp] theorem State.setByte_tlbs (k : Nat) (b : Byte) : (s.setByte k b).tlbs = s.tlbs := rfl
@[simp] theorem State.setByte_held (k : Nat) (b : Byte) : (s.setByte k b).held = s.held := rfl
@[simp] theorem State.setByte_inval (k : Nat) (b : Byte) : (s.setByte k b).inval = s.inval := rfl
@[simp] theorem State.setByte_hbm (k : Nat) (b : Byte) : (s.setByte k b).hbm = s.hbm := rfl
@[simp] theorem State.setByte_cxl (k : Nat) (b : Byte) : (s.setByte k b).cxl = s.cxl := rfl
@[simp] theorem State.setByte_scrub (k : Nat) (b : Byte) : (s.setByte k b).scrub = s.scrub := rfl
@[simp] theorem State.setByte_used (k : Nat) (b : Byte) : (s.setByte k b).used = s.used := rfl
@[simp] theorem State.setByte_extQ (k : Nat) (b : Byte) : (s.setByte k b).extQ = s.extQ := rfl
@[simp] theorem State.setByte_polMem (k : Nat) (b : Byte) : (s.setByte k b).polMem = s.polMem := rfl
@[simp] theorem State.setByte_ports (k : Nat) (b : Byte) : (s.setByte k b).ports = s.ports := rfl
@[simp] theorem State.setByte_nvme (k : Nat) (b : Byte) : (s.setByte k b).nvme = s.nvme := rfl
@[simp] theorem State.setByte_booted (k : Nat) (b : Byte) : (s.setByte k b).booted = s.booted := rfl
@[simp] theorem State.setByte_bootSrc (k : Nat) (b : Byte) : (s.setByte k b).bootSrc = s.bootSrc := rfl
@[simp] theorem State.setByte_msmt (k : Nat) (b : Byte) : (s.setByte k b).msmt = s.msmt := rfl
@[simp] theorem State.setByte_ownerKey (k : Nat) (b : Byte) : (s.setByte k b).ownerKey = s.ownerKey := rfl
@[simp] theorem State.setByte_owned (k : Nat) (b : Byte) : (s.setByte k b).owned = s.owned := rfl
@[simp] theorem State.setByte_transfer (k : Nat) (b : Byte) : (s.setByte k b).transfer = s.transfer := rfl
@[simp] theorem State.setByte_spdmVersion (k : Nat) (b : Byte) : (s.setByte k b).spdmVersion = s.spdmVersion := rfl
@[simp] theorem State.setByte_spdmCaps (k : Nat) (b : Byte) : (s.setByte k b).spdmCaps = s.spdmCaps := rfl
@[simp] theorem State.setByte_spdmAlgs (k : Nat) (b : Byte) : (s.setByte k b).spdmAlgs = s.spdmAlgs := rfl
@[simp] theorem State.setByte_pwrlim (k : Nat) (b : Byte) : (s.setByte k b).pwrlim = s.pwrlim := rfl
@[simp] theorem State.setByte_pwrNext (k : Nat) (b : Byte) : (s.setByte k b).pwrNext = s.pwrNext := rfl
@[simp] theorem State.setByte_pwrOld (k : Nat) (b : Byte) : (s.setByte k b).pwrOld = s.pwrOld := rfl
@[simp] theorem State.setByte_coolantBad (k : Nat) (b : Byte) : (s.setByte k b).coolantBad = s.coolantBad := rfl
@[simp] theorem State.setByte_coolantLog (k : Nat) (b : Byte) : (s.setByte k b).coolantLog = s.coolantLog := rfl
@[simp] theorem State.setByte_pcieUp (k : Nat) (b : Byte) : (s.setByte k b).pcieUp = s.pcieUp := rfl
@[simp] theorem State.setByte_stopped (k : Nat) (b : Byte) : (s.setByte k b).stopped = s.stopped := rfl
@[simp] theorem State.setByte_rotate (k : Nat) (b : Byte) : (s.setByte k b).rotate = s.rotate := rfl

/-! `zero` -/
@[simp] theorem State.zero_tick (k n : Nat) : (s.zero k n).tick = s.tick := rfl
@[simp] theorem State.zero_round (k n : Nat) : (s.zero k n).round = s.round := rfl
@[simp] theorem State.zero_pclk (k n : Nat) : (s.zero k n).pclk = s.pclk := rfl
@[simp] theorem State.zero_sched (k n : Nat) : (s.zero k n).sched = s.sched := rfl
@[simp] theorem State.zero_iss (k n : Nat) : (s.zero k n).iss = s.iss := rfl
@[simp] theorem State.zero_turn (k n : Nat) : (s.zero k n).turn = s.turn := rfl
@[simp] theorem State.zero_nextId (k n : Nat) : (s.zero k n).nextId = s.nextId := rfl
@[simp] theorem State.zero_freeCtr (k n : Nat) : (s.zero k n).freeCtr = s.freeCtr := rfl
@[simp] theorem State.zero_outbox (k n : Nat) : (s.zero k n).outbox = s.outbox := rfl
@[simp] theorem State.zero_badW (k n : Nat) : (s.zero k n).badW = s.badW := rfl
@[simp] theorem State.zero_badSec (k n : Nat) : (s.zero k n).badSec = s.badSec := rfl
@[simp] theorem State.zero_lost (k n : Nat) : (s.zero k n).lost = s.lost := rfl
@[simp] theorem State.zero_warps (k n : Nat) : (s.zero k n).warps = s.warps := rfl
@[simp] theorem State.zero_resident (k n : Nat) : (s.zero k n).resident = s.resident := rfl
@[simp] theorem State.zero_quads (k n : Nat) : (s.zero k n).quads = s.quads := rfl
@[simp] theorem State.zero_cores (k n : Nat) : (s.zero k n).cores = s.cores := rfl
@[simp] theorem State.zero_flights (k n : Nat) : (s.zero k n).flights = s.flights := rfl
@[simp] theorem State.zero_jobs (k n : Nat) : (s.zero k n).jobs = s.jobs := rfl
@[simp] theorem State.zero_runs (k n : Nat) : (s.zero k n).runs = s.runs := rfl
@[simp] theorem State.zero_contracts (k n : Nat) : (s.zero k n).contracts = s.contracts := rfl
@[simp] theorem State.zero_launches (k n : Nat) : (s.zero k n).launches = s.launches := rfl
@[simp] theorem State.zero_saved (k n : Nat) : (s.zero k n).saved = s.saved := rfl
@[simp] theorem State.zero_savedJobs (k n : Nat) : (s.zero k n).savedJobs = s.savedJobs := rfl
@[simp] theorem State.zero_larkarQ (k n : Nat) : (s.zero k n).larkarQ = s.larkarQ := rfl
@[simp] theorem State.zero_tlbs (k n : Nat) : (s.zero k n).tlbs = s.tlbs := rfl
@[simp] theorem State.zero_held (k n : Nat) : (s.zero k n).held = s.held := rfl
@[simp] theorem State.zero_inval (k n : Nat) : (s.zero k n).inval = s.inval := rfl
@[simp] theorem State.zero_hbm (k n : Nat) : (s.zero k n).hbm = s.hbm := rfl
@[simp] theorem State.zero_cxl (k n : Nat) : (s.zero k n).cxl = s.cxl := rfl
@[simp] theorem State.zero_scrub (k n : Nat) : (s.zero k n).scrub = s.scrub := rfl
@[simp] theorem State.zero_used (k n : Nat) : (s.zero k n).used = s.used := rfl
@[simp] theorem State.zero_extQ (k n : Nat) : (s.zero k n).extQ = s.extQ := rfl
@[simp] theorem State.zero_polMem (k n : Nat) : (s.zero k n).polMem = s.polMem := rfl
@[simp] theorem State.zero_ports (k n : Nat) : (s.zero k n).ports = s.ports := rfl
@[simp] theorem State.zero_nvme (k n : Nat) : (s.zero k n).nvme = s.nvme := rfl
@[simp] theorem State.zero_booted (k n : Nat) : (s.zero k n).booted = s.booted := rfl
@[simp] theorem State.zero_bootSrc (k n : Nat) : (s.zero k n).bootSrc = s.bootSrc := rfl
@[simp] theorem State.zero_msmt (k n : Nat) : (s.zero k n).msmt = s.msmt := rfl
@[simp] theorem State.zero_ownerKey (k n : Nat) : (s.zero k n).ownerKey = s.ownerKey := rfl
@[simp] theorem State.zero_owned (k n : Nat) : (s.zero k n).owned = s.owned := rfl
@[simp] theorem State.zero_transfer (k n : Nat) : (s.zero k n).transfer = s.transfer := rfl
@[simp] theorem State.zero_spdmVersion (k n : Nat) : (s.zero k n).spdmVersion = s.spdmVersion := rfl
@[simp] theorem State.zero_spdmCaps (k n : Nat) : (s.zero k n).spdmCaps = s.spdmCaps := rfl
@[simp] theorem State.zero_spdmAlgs (k n : Nat) : (s.zero k n).spdmAlgs = s.spdmAlgs := rfl
@[simp] theorem State.zero_pwrlim (k n : Nat) : (s.zero k n).pwrlim = s.pwrlim := rfl
@[simp] theorem State.zero_pwrNext (k n : Nat) : (s.zero k n).pwrNext = s.pwrNext := rfl
@[simp] theorem State.zero_pwrOld (k n : Nat) : (s.zero k n).pwrOld = s.pwrOld := rfl
@[simp] theorem State.zero_coolantBad (k n : Nat) : (s.zero k n).coolantBad = s.coolantBad := rfl
@[simp] theorem State.zero_coolantLog (k n : Nat) : (s.zero k n).coolantLog = s.coolantLog := rfl
@[simp] theorem State.zero_pcieUp (k n : Nat) : (s.zero k n).pcieUp = s.pcieUp := rfl
@[simp] theorem State.zero_stopped (k n : Nat) : (s.zero k n).stopped = s.stopped := rfl
@[simp] theorem State.zero_rotate (k n : Nat) : (s.zero k n).rotate = s.rotate := rfl

end Fields

/-! ### Reads after updates -/

@[simp] theorem State.warp_setQuad (s : State) (q : Nat) (x : Quad) (i : Nat) : (s.setQuad q x).warp i = s.warp i := rfl
@[simp] theorem State.warp_setCore (s : State) (c : Nat) (x : Core) (i : Nat) : (s.setCore c x).warp i = s.warp i := rfl
@[simp] theorem State.warp_setContract (s : State) (v : Nat) (x : Contract) (i : Nat) : (s.setContract v x).warp i = s.warp i := rfl
@[simp] theorem State.warp_emit (s : State) (o : Out) (i : Nat) : (s.emit o).warp i = s.warp i := rfl
@[simp] theorem State.warp_setByte (s : State) (k : Nat) (b : Byte) (i : Nat) : (s.setByte k b).warp i = s.warp i := rfl
@[simp] theorem State.warp_zero (s : State) (k n : Nat) (i : Nat) : (s.zero k n).warp i = s.warp i := rfl
@[simp] theorem State.quad_setWarp (s : State) (g : Nat) (w : Warp) (i : Nat) : (s.setWarp g w).quad i = s.quad i := rfl
@[simp] theorem State.quad_setCore (s : State) (c : Nat) (x : Core) (i : Nat) : (s.setCore c x).quad i = s.quad i := rfl
@[simp] theorem State.quad_setContract (s : State) (v : Nat) (x : Contract) (i : Nat) : (s.setContract v x).quad i = s.quad i := rfl
@[simp] theorem State.quad_emit (s : State) (o : Out) (i : Nat) : (s.emit o).quad i = s.quad i := rfl
@[simp] theorem State.quad_setByte (s : State) (k : Nat) (b : Byte) (i : Nat) : (s.setByte k b).quad i = s.quad i := rfl
@[simp] theorem State.quad_zero (s : State) (k n : Nat) (i : Nat) : (s.zero k n).quad i = s.quad i := rfl
@[simp] theorem State.core_setWarp (s : State) (g : Nat) (w : Warp) (i : Nat) : (s.setWarp g w).core i = s.core i := rfl
@[simp] theorem State.core_setQuad (s : State) (q : Nat) (x : Quad) (i : Nat) : (s.setQuad q x).core i = s.core i := rfl
@[simp] theorem State.core_setContract (s : State) (v : Nat) (x : Contract) (i : Nat) : (s.setContract v x).core i = s.core i := rfl
@[simp] theorem State.core_emit (s : State) (o : Out) (i : Nat) : (s.emit o).core i = s.core i := rfl
@[simp] theorem State.core_setByte (s : State) (k : Nat) (b : Byte) (i : Nat) : (s.setByte k b).core i = s.core i := rfl
@[simp] theorem State.core_zero (s : State) (k n : Nat) (i : Nat) : (s.zero k n).core i = s.core i := rfl
@[simp] theorem State.contract_setWarp (s : State) (g : Nat) (w : Warp) (i : Nat) : (s.setWarp g w).contract i = s.contract i := rfl
@[simp] theorem State.contract_setQuad (s : State) (q : Nat) (x : Quad) (i : Nat) : (s.setQuad q x).contract i = s.contract i := rfl
@[simp] theorem State.contract_setCore (s : State) (c : Nat) (x : Core) (i : Nat) : (s.setCore c x).contract i = s.contract i := rfl
@[simp] theorem State.contract_emit (s : State) (o : Out) (i : Nat) : (s.emit o).contract i = s.contract i := rfl
@[simp] theorem State.contract_setByte (s : State) (k : Nat) (b : Byte) (i : Nat) : (s.setByte k b).contract i = s.contract i := rfl
@[simp] theorem State.contract_zero (s : State) (k n : Nat) (i : Nat) : (s.zero k n).contract i = s.contract i := rfl
@[simp] theorem State.byte_setWarp (s : State) (g : Nat) (w : Warp) (i : Nat) : (s.setWarp g w).byte i = s.byte i := rfl
@[simp] theorem State.byte_setQuad (s : State) (q : Nat) (x : Quad) (i : Nat) : (s.setQuad q x).byte i = s.byte i := rfl
@[simp] theorem State.byte_setCore (s : State) (c : Nat) (x : Core) (i : Nat) : (s.setCore c x).byte i = s.byte i := rfl
@[simp] theorem State.byte_setContract (s : State) (v : Nat) (x : Contract) (i : Nat) : (s.setContract v x).byte i = s.byte i := rfl
@[simp] theorem State.byte_emit (s : State) (o : Out) (i : Nat) : (s.emit o).byte i = s.byte i := rfl

@[simp] theorem State.quad_setQuad_self (s : State) (q : Nat) (x : Quad) : (s.setQuad q x).quad q = x := by
  simp [State.quad, State.setQuad]
theorem State.quad_setQuad (s : State) (q k : Nat) (x : Quad) : (s.setQuad q x).quad k = if k = q then x else s.quad k := by
  simp only [State.quad, State.setQuad, NMap.get_set]
@[simp] theorem State.core_setCore_self (s : State) (c : Nat) (x : Core) : (s.setCore c x).core c = x := by
  simp [State.core, State.setCore]
theorem State.core_setCore (s : State) (c k : Nat) (x : Core) : (s.setCore c x).core k = if k = c then x else s.core k := by
  simp only [State.core, State.setCore, NMap.get_set]
@[simp] theorem State.contract_setContract_self (s : State) (v : Nat) (x : Contract) : (s.setContract v x).contract v = x := by
  simp [State.contract, State.setContract]
theorem State.contract_setContract (s : State) (v k : Nat) (x : Contract) :
    (s.setContract v x).contract k = if k = v then x else s.contract k := by
  simp only [State.contract, State.setContract, NMap.get_set]

/-! ### Memory -/

theorem State.byte_setByte (s : State) (k j : Nat) (b : Byte) : (s.setByte k b).byte j = if j = k then b else s.byte j := by
  simp only [State.byte, State.setByte, NMap.get_set]

theorem State.byte_zero (s : State) (k n j : Nat) : (s.zero k n).byte j = if k ≤ j ∧ j < k + n then 0 else s.byte j := by
  simp only [State.byte, State.zero, NMap.get_clear]; rfl

/-- Bytes written from a key upwards, read one by one. -/
theorem State.byte_setBytes (s : State) (k j : Nat) (bs : List Byte) :
    (s.setBytes k bs).byte j = if k ≤ j ∧ j < k + bs.length then bs.getD (j - k) 0 else s.byte j := by
  induction bs generalizing s k with
  | nil =>
    rw [State.setBytes, if_neg]
    simp
  | cons b bs ih =>
    rw [State.setBytes, ih, State.byte_setByte]
    by_cases h1 : j = k
    · subst h1; simp
    · by_cases h2 : k + 1 ≤ j ∧ j < k + 1 + bs.length
      · obtain ⟨d, rfl⟩ : ∃ d, j = k + 1 + d := ⟨j - (k + 1), by omega⟩
        have e1 : k + 1 + d - (k + 1) = d := by omega
        have e2 : k + 1 + d - k = d + 1 := by omega
        have h3 : k ≤ k + 1 + d ∧ k + 1 + d < k + (b :: bs).length := by simp; omega
        rw [if_pos h2, if_pos h3, e1, e2]; simp
      · have h3 : ¬ (k ≤ j ∧ j < k + (b :: bs).length) := by simp; omega
        rw [if_neg h2, if_neg h1, if_neg h3]

/-- Nothing but memory changes. -/
theorem State.setBytes_rest (s : State) (k : Nat) (bs : List Byte) : { s.setBytes k bs with mem := [] } = { s with mem := [] } := by
  induction bs generalizing s k with
  | nil => rfl
  | cons b bs ih => rw [State.setBytes, ih]; rfl

theorem State.storedAt_setBytes (s : State) (k : Nat) (bs : List Byte) : s.StoredAt (s.setBytes k bs) k bs :=
  ⟨State.setBytes_rest s k bs, fun j => State.byte_setBytes s k j bs⟩

theorem State.inv_setByte {s : State} (k : Nat) (b : Byte) (h : s.inv) : (s.setByte k b).inv := NMap.wf_set _ _ _ _ h
theorem State.inv_zero {s : State} (k n : Nat) (h : s.inv) : (s.zero k n).inv := NMap.wf_clear _ _ _ _ h

theorem State.inv_setBytes {s : State} (k : Nat) (bs : List Byte) (h : s.inv) : (s.setBytes k bs).inv := by
  induction bs generalizing s k with
  | nil => exact h
  | cons b bs ih => exact ih (k + 1) (State.inv_setByte k b h)

theorem State.inv_wr {s : State} (k n v : Nat) (h : s.inv) : (s.wr k n v).inv := State.inv_setBytes k _ h

/-- A store that goes through keeps the form. -/
theorem State.inv_of_mem {s t : State} (h : s.inv) (e : t.mem = s.mem) : t.inv := by
  unfold State.inv at h ⊢; rw [e]; exact h

end Sys2Proof.Machine
end

