-- ==== Sys2Proof/Tests/Slice0.lean ====
section
/-! SUPPORT. Tests. Words written out from the encoding tables of spec/03 and the family pages decode to what they stand for; ill-formed
terms are refused; results that the spec works out come out; and for every statement with hypotheses a state meets them together
(`witness_<statement>`, further cases with a suffix). -/

namespace Sys2Proof.Slice0

open Sys2Proof.Machine

set_option Elab.async false

/-! ### Small states -/

/-- An unguarded 64-bit form, one guarded by `?!p1`, and a 96-bit form with a literal. -/
def u : Hdr := { guard := { neg := false, idx := 7 }, long := false, lit := 0 }
def v : Hdr := { u with guard := { neg := true, idx := 1 } }
def lit (n : Word) : Hdr := { u with long := true, lit := n }
def hd (n : BitVec 8) : Dst := .reg (.hold n) false
def nd (n : BitVec 4) : Dst := .reg (.near n) false
def wd (n : BitVec 6) : Dst := .reg (.uniform n) false

/-- A thread at 0x1000, in the strand that begins there. -/
def th : Thread := { Thread.init with pc := 0x1000, rpc := 0x1000 }

/-- A warp of two threads, of device 1's launch 5, with a handler. -/
def wp : Warp := { Warp.init with
  vdev := 1, lseq := 5, pseq := 2, hc := 64, handler := 0x4000, tmask := 3, live := 3, threads := [(0, th), (1, th)] }

/-- A part on which that warp, in slot 0 of quadrant 0, issues a 2-word instruction at 0x1000 in clock 10. -/
def st (w : Warp) : State := { State.reset with
  cxl := Tier.bootCxlOf (fun _ => 0), nextId := 7,
  warps := [(0, w)], resident := [0], iss := { quad := 0, slot := 0, mask := 3, pc := 0x1000, words := 2, clk := 10 },
  contracts := [(1, { Contract.init with vdev := 1, v := true, rights := true, ptroot := 0x80000, ttbase := 0x200000 })],
  cores := [(0, { Core.init with own0 := 1, own1 := 1, own2 := 1, own3 := 1 })] }

/-- Registers: `h2` = 7 and -1, `h3` = 9 and 3, `h4:h5` = 0x2000 and 0x2004, latch `k1` and near `n2` valid. -/
def regs : Warp := { wp with
  hold := [(2, 7), (3, 9), (4, 0x2000), (258, 0xFFFFFFFF), (259, 3), (260, 0x2004)],
  near := [(2, 5), (18, 6)], nearW := [(2, 3)], latch := [(0, 4), (4, 4)], latchV := [(0, 3)], uni := [(7, 0x40000000)],
  pred := [(1, 1)] }

def after (r : Res) : State := match r with
  | .next t => t
  | _ => State.reset
def went : Res → Bool
  | .next _ => true
  | _ => false

/-- The lanes of a mask are below 32. -/
theorem lane_all (m : Mask) (P : Nat → Prop) (h : ∀ l, l < 32 → hasLane m l = true → P l) :
    ∀ l, hasLane m l = true → P l := by
  intro l hl
  by_cases hb : l < 32
  · exact h l hb hl
  · rw [hasLane, BitVec.getLsbD_of_ge _ _ (by omega)] at hl
    cases hl

/-- A target can be written and sources read by `regs`. -/
abbrev canCompute (tgt : Target) (srcs : List (Opd × Ty)) : Prop :=
  tgt.ok = true ∧ (aluShape u tgt srcs).check regs 3 = none


/-! ### Words of every instruction (spec/03, and the encoding tables of the family pages) -/

abbrev decodesTo (l : List (List Word × Instr)) : Prop := l.map (fun x => decode x.1) = l.map (fun x => .ok x.2)

theorem test_decode_int21 : decodesTo [
    ([0x1C050006, 0x00000D02], .add u .w32 (hd 5) (.near 2) (.hold 3)),
    ([0x1C050406, 0x00000D02], .sub u .w32 (hd 5) (.near 2) (.hold 3)),
    ([0x1C050806, 0x00000D02], .mul u .w32 (hd 5) (.near 2) (.hold 3)),
    ([0x1C050C06, 0x00000D02], .mulh u .w32 (hd 5) (.near 2) (.hold 3)),
    ([0x1C051006, 0x00000D02], .mulhn u .w32 (hd 5) (.near 2) (.hold 3)),
    ([0x1C051406, 0x00000D02], .div u .w32 (hd 5) (.near 2) (.hold 3)),
    ([0x1C051806, 0x00000D02], .divn u .w32 (hd 5) (.near 2) (.hold 3)),
    ([0x1C051C06, 0x00000D02], .rem u .w32 (hd 5) (.near 2) (.hold 3)),
    ([0x1C052006, 0x00000D02], .remn u .w32 (hd 5) (.near 2) (.hold 3)),
    ([0x1C052406, 0x00000D02], .minS u .w32 (hd 5) (.near 2) (.hold 3)),
    ([0x1C052806, 0x00000D02], .maxS u .w32 (hd 5) (.near 2) (.hold 3)),
    ([0x1C052C06, 0x00000D02], .minn u .w32 (hd 5) (.near 2) (.hold 3))] := by decide

theorem test_decode_int22 : decodesTo [
    ([0x1C053006, 0x00000D02], .maxn u .w32 (hd 5) (.near 2) (.hold 3)),
    ([0x1C053406, 0x00000D02], .andB u .w32 (hd 5) (.near 2) (.hold 3)),
    ([0x1C053806, 0x00000D02], .orB u .w32 (hd 5) (.near 2) (.hold 3)),
    ([0x1C053C06, 0x00000D02], .xorB u .w32 (hd 5) (.near 2) (.hold 3)),
    ([0x1C054006, 0x00000D02], .andn u .w32 (hd 5) (.near 2) (.hold 3)),
    ([0x1C054406, 0x00000D02], .orn u .w32 (hd 5) (.near 2) (.hold 3)),
    ([0x1C054806, 0x00000D02], .shl u .w32 (hd 5) (.near 2) (.hold 3)),
    ([0x1C054C06, 0x00000D02], .shr u .w32 (hd 5) (.near 2) (.hold 3)),
    ([0x1C055006, 0x00000D02], .sar u .w32 (hd 5) (.near 2) (.hold 3)),
    ([0x1C055406, 0x00000D02], .rol u .w32 (hd 5) (.near 2) (.hold 3)),
    ([0x1C055806, 0x00000D02], .ror u .w32 (hd 5) (.near 2) (.hold 3))] := by decide

theorem test_decode_int3 : decodesTo [
    ([0x1C05000A, 0x14700D02], .mad u .w32 (hd 5) (.near 2) (.hold 3) (.uniform 7)),
    ([0x1C05040A, 0x14700D02], .madh u .w32 (hd 5) (.near 2) (.hold 3) (.uniform 7)),
    ([0x1C05080A, 0x14700D02], .lea u .w32 (hd 5) (.near 2) (.hold 3) (.uniform 7)),
    ([0x1C050C0A, 0x00000D02], .bfx u .w32 (hd 5) (.near 2) (.hold 3)),
    ([0x1C05100A, 0x14700D02], .bfi u .w32 (hd 5) (.near 2) (.hold 3) (.uniform 7)),
    ([0x1C05140A, 0x00400D02], .sel u .w32 (hd 5) (.near 2) (.hold 3) 4),
    ([0x1C05180A, 0x14700D02], .add3 u .w32 (hd 5) (.near 2) (.hold 3) (.uniform 7))] := by decide

theorem test_decode_int1 : decodesTo [
    ([0x1C06000E, 0x40000102], .mov u .w64 (hd 6) (.near 2)),
    ([0x1C06040E, 0x40000102], .neg u .w64 (hd 6) (.near 2)),
    ([0x1C06080E, 0x40000102], .abs u .w64 (hd 6) (.near 2)),
    ([0x1C060C0E, 0x40000102], .notB u .w64 (hd 6) (.near 2)),
    ([0x1C06100E, 0x40000102], .popc u .w64 (hd 6) (.near 2)),
    ([0x1C06140E, 0x40000102], .clz u .w64 (hd 6) (.near 2)),
    ([0x1C06180E, 0x40000102], .ctz u .w64 (hd 6) (.near 2)),
    ([0x1C061C0E, 0x40000102], .brev u .w64 (hd 6) (.near 2)),
    ([0x1C06200E, 0x40000102], .sext8 u .w64 (hd 6) (.near 2)),
    ([0x1C06240E, 0x40000102], .sext16 u .w64 (hd 6) (.near 2)),
    ([0x1C06280E, 0x40000102], .zext8 u .w64 (hd 6) (.near 2)),
    ([0x1C062C0E, 0x40000102], .zext16 u .w64 (hd 6) (.near 2))] := by decide

theorem test_decode_cmp : decodesTo [
    ([0x24020012, 0x033BFC01], .cmp v .eq .w32 2 (.or true 3) (.hold 1) (.imm 0xFF)),
    ([0x24020412, 0x033BFC01], .cmp v .ne .w32 2 (.or true 3) (.hold 1) (.imm 0xFF)),
    ([0x24020812, 0x033BFC01], .cmp v .lt .w32 2 (.or true 3) (.hold 1) (.imm 0xFF)),
    ([0x24020C12, 0x033BFC01], .cmp v .le .w32 2 (.or true 3) (.hold 1) (.imm 0xFF)),
    ([0x24021012, 0x033BFC01], .cmp v .gt .w32 2 (.or true 3) (.hold 1) (.imm 0xFF)),
    ([0x24021412, 0x033BFC01], .cmp v .ge .w32 2 (.or true 3) (.hold 1) (.imm 0xFF)),
    ([0x24021812, 0x033BFC01], .cmp v .ltn .w32 2 (.or true 3) (.hold 1) (.imm 0xFF)),
    ([0x24021C12, 0x033BFC01], .cmp v .len .w32 2 (.or true 3) (.hold 1) (.imm 0xFF)),
    ([0x24022012, 0x033BFC01], .cmp v .gtn .w32 2 (.or true 3) (.hold 1) (.imm 0xFF)),
    ([0x24022412, 0x033BFC01], .cmp v .gen .w32 2 (.or true 3) (.hold 1) (.imm 0xFF)),
    ([0x24022812, 0x033BFC01], .cmp v .tst .w32 2 (.or true 3) (.hold 1) (.imm 0xFF)),
    ([0x24022C12, 0x033BFC01], .cmp v .tstz .w32 2 (.or true 3) (.hold 1) (.imm 0xFF))] := by decide

theorem test_decode_fp21 : decodesTo [
    ([0x1C050016, 0x40000D02], .fadd u .rtz (hd 5) (.near 2) (.hold 3)),
    ([0x1C050416, 0x80000D02], .fsub u .rdn (hd 5) (.near 2) (.hold 3)),
    ([0x1C050816, 0xC0000D02], .fmul u .rup (hd 5) (.near 2) (.hold 3)),
    ([0x1C050C16, 0x00000D02], .fmin u (hd 5) (.near 2) (.hold 3)),
    ([0x1C051016, 0x00000D02], .fmax u (hd 5) (.near 2) (.hold 3)),
    ([0x1C051416, 0x00000D02], .fminp u (hd 5) (.near 2) (.hold 3)),
    ([0x1C051816, 0x00000D02], .fmaxp u (hd 5) (.near 2) (.hold 3)),
    ([0x1C051C16, 0x80000D02], .fscale u .rdn (hd 5) (.near 2) (.hold 3)),
    ([0x1C052016, 0xC0000D02], .hadd2 u .f16 .rup (hd 5) (.near 2) (.hold 3)),
    ([0x9C052416, 0xC0000D02], .hsub2 u .bf16 .rup (hd 5) (.near 2) (.hold 3)),
    ([0x1C052816, 0xC0000D02], .hmul2 u .f16 .rup (hd 5) (.near 2) (.hold 3)),
    ([0x1C052C16, 0x00000D02], .hmin2 u .f16 (hd 5) (.near 2) (.hold 3))] := by decide

theorem test_decode_fp22 : decodesTo [
    ([0x9C053016, 0x00000D02], .hmax2 u .bf16 (hd 5) (.near 2) (.hold 3))] := by decide

theorem test_decode_fp3 : decodesTo [
    ([0x1C05001A, 0x14700D02], .ffma u .rne (hd 5) (.near 2) (.hold 3) (.uniform 7)),
    ([0x1C05041A, 0x54700D02], .ffms u .rtz (hd 5) (.near 2) (.hold 3) (.uniform 7)),
    ([0x1C05081A, 0x94700D02], .fnma u .rdn (hd 5) (.near 2) (.hold 3) (.uniform 7)),
    ([0x9C050C1A, 0xD4700D02], .hfma2 u .bf16 .rup (hd 5) (.near 2) (.hold 3) (.uniform 7))] := by decide

theorem test_decode_fp1 : decodesTo [
    ([0x1C05001E, 0x00000102], .fabs u (hd 5) (.near 2)),
    ([0x1C05041E, 0x00000102], .fneg u (hd 5) (.near 2)),
    ([0x1C05081E, 0x80000102], .frnd u .rdn (hd 5) (.near 2)),
    ([0x1C050C1E, 0x00000102], .fclass u (hd 5) (.near 2)),
    ([0x1C05101E, 0x00000102], .fsat u (hd 5) (.near 2))] := by decide

theorem test_decode_fcmp1 : decodesTo [
    ([0x1C010022, 0x00000801], .fcmp u .eq .f32 1 .none (.hold 1) (.hold 2)),
    ([0x1C010422, 0x40000801], .fcmp u .ne .f16 1 .none (.hold 1) (.hold 2)),
    ([0x1C010822, 0x80000801], .fcmp u .lt .bf16 1 .none (.hold 1) (.hold 2)),
    ([0x1C010C22, 0x00000801], .fcmp u .le .f32 1 .none (.hold 1) (.hold 2)),
    ([0x1C011022, 0x40000801], .fcmp u .gt .f16 1 .none (.hold 1) (.hold 2)),
    ([0x1C011422, 0x80000801], .fcmp u .ge .bf16 1 .none (.hold 1) (.hold 2)),
    ([0x1C011822, 0x00000801], .fcmp u .num .f32 1 .none (.hold 1) (.hold 2)),
    ([0x1C011C22, 0x40000801], .fcmp u .nan .f16 1 .none (.hold 1) (.hold 2)),
    ([0x1C012022, 0x80000801], .fcmp u .neu .bf16 1 .none (.hold 1) (.hold 2)),
    ([0x1C012422, 0x00000801], .fcmp u .ltu .f32 1 .none (.hold 1) (.hold 2)),
    ([0x1C012822, 0x40000801], .fcmp u .leu .f16 1 .none (.hold 1) (.hold 2)),
    ([0x1C012C22, 0x80000801], .fcmp u .gtu .bf16 1 .none (.hold 1) (.hold 2))] := by decide

theorem test_decode_fcmp2 : decodesTo [
    ([0x1C013022, 0x00000801], .fcmp u .geu .f32 1 .none (.hold 1) (.hold 2)),
    ([0x1C013422, 0x40000801], .fcmp u .equ .f16 1 .none (.hold 1) (.hold 2))] := by decide

theorem test_decode_cvt1 : decodesTo [
    ([0x1C060026, 0x00000002], .cvt u .f32f16 .rne (hd 6) (.hold 2)),
    ([0x1C060426, 0x00000002], .cvt u .f32bf16 .rne (hd 6) (.hold 2)),
    ([0x1C060826, 0x40000002], .cvt u .f16f32 .rtz (hd 6) (.hold 2)),
    ([0x1C060C26, 0x40000002], .cvt u .bf16f32 .rtz (hd 6) (.hold 2)),
    ([0x1C061026, 0x40000002], .cvt u .f16bf16 .rtz (hd 6) (.hold 2)),
    ([0x1C061426, 0x40000002], .cvt u .bf16f16 .rtz (hd 6) (.hold 2)),
    ([0x1C061826, 0x00000002], .cvt u .f32e4m3 .rne (hd 6) (.hold 2)),
    ([0x1C061C26, 0x00000002], .cvt u .f32e5m2 .rne (hd 6) (.hold 2)),
    ([0x1C062026, 0x40000002], .cvt u .e4m3f32 .rtz (hd 6) (.hold 2)),
    ([0x1C062426, 0x40000002], .cvt u .e5m2f32 .rtz (hd 6) (.hold 2)),
    ([0x1C062826, 0x40000002], .cvt u .f32i32 .rtz (hd 6) (.hold 2)),
    ([0x1C062C26, 0x40000002], .cvt u .f32n32 .rtz (hd 6) (.hold 2))] := by decide

theorem test_decode_cvt2 : decodesTo [
    ([0x1C063026, 0x40000002], .cvt u .i32f32 .rtz (hd 6) (.hold 2)),
    ([0x1C063426, 0x40000002], .cvt u .n32f32 .rtz (hd 6) (.hold 2)),
    ([0x1C063826, 0x40000002], .cvt u .f32i64 .rtz (hd 6) (.hold 2)),
    ([0x1C063C26, 0x40000002], .cvt u .f32n64 .rtz (hd 6) (.hold 2)),
    ([0x1C064026, 0x40000002], .cvt u .i64f32 .rtz (hd 6) (.hold 2)),
    ([0x1C064426, 0x40000002], .cvt u .n64f32 .rtz (hd 6) (.hold 2)),
    ([0x1C064826, 0x40000002], .cvt u .i8f32 .rtz (hd 6) (.hold 2)),
    ([0x1C064C26, 0x40000002], .cvt u .n8f32 .rtz (hd 6) (.hold 2)),
    ([0x1C065026, 0x40000002], .cvt u .i16f32 .rtz (hd 6) (.hold 2)),
    ([0x1C065426, 0x40000002], .cvt u .n16f32 .rtz (hd 6) (.hold 2))] := by decide

theorem test_decode_sfu : decodesTo [
    ([0x1C05002A, 0x00000102], .rcp u (hd 5) (.near 2)),
    ([0x1C05042A, 0x00000102], .rsq u (hd 5) (.near 2)),
    ([0x1C05082A, 0x00000102], .sqrt u (hd 5) (.near 2)),
    ([0x1C050C2A, 0x00000102], .exp2 u (hd 5) (.near 2)),
    ([0x1C05102A, 0x00000102], .log2 u (hd 5) (.near 2)),
    ([0x1C05142A, 0x00000102], .sinpi u (hd 5) (.near 2)),
    ([0x1C05182A, 0x00000102], .cospi u (hd 5) (.near 2)),
    ([0x1C051C2A, 0x00000102], .tanh u (hd 5) (.near 2)),
    ([0x1C05202A, 0x00000102], .sigm u (hd 5) (.near 2)),
    ([0x1C05242A, 0x00000D02], .divf u (hd 5) (.near 2) (.hold 3))] := by decide

theorem test_decode_branch : decodesTo [
    ([0x24000042, 0xFFFFFFC0], .bra v 0xFFFFFFC0),
    ([0x1C000442, 0x00000004], .brx u (.hold 4)),
    ([0x1C000842, 0x00000005], .call u 5),
    ([0x1C000C43, 0x000003FF, 0x00002000], .callx { u with long := true, lit := 0x2000 } .lit),
    ([0x1C001042, 0x00000000], .ret u),
    ([0x1C001442, 0x00000000], .exit u),
    ([0x1C001842, 0x00000205], .trap u (.imm 5)),
    ([0x24001C42, 0x00000000], .brk v)] := by decide

theorem test_decode_rejoin : decodesTo [
    ([0x1C050046, 0x00000000], .jset u 5),
    ([0x1C050446, 0x00000000], .jadd u 5),
    ([0x1C050846, 0x00000000], .jclr u 5),
    ([0x1C000C46, 0x00000005], .waitj u 5),
    ([0x1C051046, 0x00000000], .elect u 5),
    ([0x1C001446, 0x00000005], .sleepj u 5),
    ([0x1C051846, 0x00000000], .wakej u 5),
    ([0x1C02004B, 0x0000010F, 0x80000000], .strand 2 0x800000000000010F)] := by decide

theorem test_decode_xlane1 : decodesTo [
    ([0x1C06004E, 0x00080402], .shfl u .idx .w32 (hd 6) (.hold 2) (.imm 1)),
    ([0x9C06004E, 0x40080402], .shfl u .up .w64 (hd 6) (.hold 2) (.imm 1)),
    ([0x1C06004E, 0x80080402], .shfl u .down .w32 (hd 6) (.hold 2) (.imm 1)),
    ([0x9C06004E, 0xC0080402], .shfl u .xor .w64 (hd 6) (.hold 2) (.imm 1)),
    ([0x9D06044E, 0x00201005], .lpush u (.reg (.near 6) false) (.hold 5) (.hold 4) (some 2)),
    ([0x1C06044E, 0x00001005], .lpush u (hd 6) (.hold 5) (.hold 4) none),
    ([0x1C06044E, 0x54301005], .lpushWarp u (hd 6) (.hold 5) (.hold 4) (.uniform 3)),
    ([0x9C03084E, 0x00000001], .voteAny u 3 true 1),
    ([0x1C03084E, 0x40000001], .voteAll u 3 false 1),
    ([0x1D49084E, 0x80000001], .voteBallot u (wd 9) false 1),
    ([0x1C03084E, 0xC0000001], .voteEq u 3 (.hold 1)),
    ([0x1C060C4E, 0x40000002], .redx u .add .w64 (hd 6) (.hold 2))] := by decide

theorem test_decode_xlane2 : decodesTo [
    ([0x1C06104E, 0x00000002], .scanx u false .add .w32 (hd 6) (.hold 2)),
    ([0x1C060C4E, 0x40100002], .redx u .min .w64 (hd 6) (.hold 2)),
    ([0x9C06104E, 0x00100002], .scanx u true .min .w32 (hd 6) (.hold 2)),
    ([0x1C060C4E, 0x40200002], .redx u .max .w64 (hd 6) (.hold 2)),
    ([0x1C06104E, 0x00200002], .scanx u false .max .w32 (hd 6) (.hold 2)),
    ([0x1C060C4E, 0x40300002], .redx u .minn .w64 (hd 6) (.hold 2)),
    ([0x9C06104E, 0x00300002], .scanx u true .minn .w32 (hd 6) (.hold 2)),
    ([0x1C060C4E, 0x40400002], .redx u .maxn .w64 (hd 6) (.hold 2)),
    ([0x1C06104E, 0x00400002], .scanx u false .maxn .w32 (hd 6) (.hold 2)),
    ([0x1C060C4E, 0x40500002], .redx u .and .w64 (hd 6) (.hold 2)),
    ([0x9C06104E, 0x00500002], .scanx u true .and .w32 (hd 6) (.hold 2)),
    ([0x1C060C4E, 0x40600002], .redx u .or .w64 (hd 6) (.hold 2))] := by decide

theorem test_decode_xlane3 : decodesTo [
    ([0x1C06104E, 0x00600002], .scanx u false .or .w32 (hd 6) (.hold 2)),
    ([0x1C060C4E, 0x40700002], .redx u .xor .w64 (hd 6) (.hold 2)),
    ([0x9C06104E, 0x00700002], .scanx u true .xor .w32 (hd 6) (.hold 2)),
    ([0x1C060C4E, 0x00800002], .redx u .fadd .w32 (hd 6) (.hold 2)),
    ([0x1C06104E, 0x00800002], .scanx u false .fadd .w32 (hd 6) (.hold 2)),
    ([0x1C060C4E, 0x00900002], .redx u .fmin .w32 (hd 6) (.hold 2)),
    ([0x9C06104E, 0x00900002], .scanx u true .fmin .w32 (hd 6) (.hold 2)),
    ([0x1C060C4E, 0x00A00002], .redx u .fmax .w32 (hd 6) (.hold 2)),
    ([0x1C06104E, 0x00A00002], .scanx u false .fmax .w32 (hd 6) (.hold 2)),
    ([0x9C06144E, 0x00000002], .matchx u .w64 (hd 6) (.hold 2))] := by decide

theorem test_decode_mem1 : decodesTo [
    ([0x1C060082, 0x00000544], .ld u .n8 .plain (hd 6) 1 (.hold 1)),
    ([0x1C060082, 0x40900544], .ld u .i8 (.sync .grp) (hd 6) 1 (.hold 1)),
    ([0x1C060082, 0x80A00544], .ld u .n16 (.sync .core) (hd 6) 1 (.hold 1)),
    ([0x1C060082, 0xC0B00544], .ld u .i16 (.sync .tract) (hd 6) 1 (.hold 1)),
    ([0x9C060082, 0x00C00544], .ld u .w32 (.sync .die) (hd 6) 1 (.hold 1)),
    ([0x9C060082, 0x40D00544], .ld u .w64 (.sync .pkg) (hd 6) 1 (.hold 1)),
    ([0x1C0E0482, 0x0020057C], .st u .b8 (.sync .sys) 15 (.hold 1) (.hold 2)),
    ([0x1C0E0482, 0x8020057C], .st u .b16 (.sync .sys) 15 (.hold 1) (.hold 2)),
    ([0x9C0E0482, 0x0020057C], .st u .w32 (.sync .sys) 15 (.hold 1) (.hold 2)),
    ([0x9C0E0482, 0x4020057C], .st u .w64 (.sync .sys) 15 (.hold 1) (.hold 2)),
    ([0x9D020882, 0x00084003], .lds u .w32 .plain (.reg (.near 2) false) (.hold 3) (.imm 16)),
    ([0x1C0A0C82, 0x80184003], .sts u .b16 (.sync .core) (.hold 3) (.imm 16) (.hold 1))] := by decide

theorem test_decode_mem2 : decodesTo [
    ([0x1C021082, 0x43B84003], .ldx u .i8 (.sync .tract) 3 (hd 2) (.hold 3) (.imm 16)),
    ([0x9C201482, 0x40884003], .stx u .w64 .plain 2 (.hold 3) (.imm 16) (.hold 8)),
    ([0x9D481882, 0x4008054C], .ldw u .w64 .plain (wd 8) 3 (.imm 1))] := by decide

theorem test_decode_atomic : decodesTo [
    ([0x1C020087, 0x00801D44, 0x00000000], .atom u.guard .add .w32 .rlx .warp (hd 2) 1 (.hold 7) (.hold 8)),
    ([0x1C020487, 0x00801D44, 0x000000A1], .atom u.guard .min .w64 .acq .grp (hd 2) 1 (.hold 7) (.hold 8)),
    ([0x1C020887, 0x00801D44, 0x00000042], .atom u.guard .max .w32 .rel .core (hd 2) 1 (.hold 7) (.hold 8)),
    ([0x1C020C87, 0x00801D44, 0x000000E3], .atom u.guard .minn .w64 .ar .tract (hd 2) 1 (.hold 7) (.hold 8)),
    ([0x1C021087, 0x00801D44, 0x00000004], .atom u.guard .maxn .w32 .rlx .die (hd 2) 1 (.hold 7) (.hold 8)),
    ([0x1C021487, 0x00801D44, 0x000000A5], .atom u.guard .and .w64 .acq .pkg (hd 2) 1 (.hold 7) (.hold 8)),
    ([0x1C021887, 0x00801D44, 0x00000046], .atom u.guard .or .w32 .rel .sys (hd 2) 1 (.hold 7) (.hold 8)),
    ([0x1C021C87, 0x00801D44, 0x000000E0], .atom u.guard .xor .w64 .ar .warp (hd 2) 1 (.hold 7) (.hold 8)),
    ([0x1C022087, 0x00801D44, 0x00000001], .atom u.guard .xchg .w32 .rlx .grp (hd 2) 1 (.hold 7) (.hold 8)),
    ([0x1C022487, 0x00801D44, 0x000000A2], .atom u.guard .cas .w64 .acq .core (hd 2) 1 (.hold 7) (.hold 8)),
    ([0x1C022887, 0x00801D44, 0x00000043], .atom u.guard .fadd .w32 .rel .tract (hd 2) 1 (.hold 7) (.hold 8)),
    ([0x9C022487, 0x00480007, 0x00000062], .atoms u.guard .cas .w32 .ar .core (hd 2) (.hold 7) (.imm 0) (.hold 4))] := by decide

theorem test_decode_fence : decodesTo [
    ([0x1C00008A, 0x00000000], .fence u .ar .warp),
    ([0x1C00048A, 0x40000000], .fence u .acq .grp),
    ([0x1C00088A, 0x80000000], .fence u .rel .core),
    ([0x1C000C8A, 0x00000000], .fence u .ar .tract),
    ([0x1C00108A, 0x40000000], .fence u .acq .die),
    ([0x1C00148A, 0x80000000], .fence u .rel .pkg),
    ([0x1C00188A, 0x00000000], .fence u .ar .sys)] := by decide

theorem test_decode_tag : decodesTo [
    ([0x1C01008E, 0x00000002], .tagq u (hd 1) (.hold 2)),
    ([0x1C00048E, 0x00400C02], .tagi u (.hold 2) (.hold 3) (.hold 4)),
    ([0x1C00088E, 0x00000002], .tagx u (.hold 2))] := by decide

theorem test_decode_engine : decodesTo [
    ([0x1D4C00A2, 0x80352002], .cpy u true none false (some (.uniform 12)) (.hold 2) (.uniform 8) (.hold 3)),
    ([0x9D1400A3, 0x50352002, 0x00050009], .cpy { u with long := true, lit := 0x00050009 } false (some (5, 9)) true none (.hold 2) (.uniform 8) (.near 3)),
    ([0x1D4C04A2, 0x14952002], .gath u false (some (.uniform 12)) (.hold 2) (.uniform 8) (.uniform 9)),
    ([0x1D1408A2, 0x00052002], .coll u false none (.hold 2) (.uniform 8))] := by decide

theorem test_decode_closure : decodesTo [
    ([0x1C0000A6, 0x0098014C], .binit u false (.uniform 12) (.imm 0) (.hold 9)),
    ([0x1C0004A7, 0x3FF8014C, 0x00000080], .bexp { u with long := true, lit := 0x80 } false (.uniform 12) (.imm 0) .lit),
    ([0x1C0008A6, 0x0008014C], .barv u false (.uniform 12) (.imm 0)),
    ([0x1C000CA6, 0x0088014C], .bwait u false (.uniform 12) (.imm 0) (.hold 8)),
    ([0x1C0210A6, 0x0088014C], .btest u false 2 (.uniform 12) (.imm 0) (.hold 8)),
    ([0x1C0014A6, 0x00000000], .trig u)] := by decide

theorem test_decode_matrix : decodesTo [
    ([0x1C1000C2, 0x40052548], .mma u .rq8 .d32 .d64 true .quad (.uniform 8) (.uniform 9)),
    ([0x1C1914C2, 0x80052548], .mma u .rq4 .d64 .d128 true (.core 2) (.uniform 8) (.uniform 9)),
    ([0x1C0E28C2, 0x00052548], .mma u .e4e4 .d128 .d32 false (.tract 3) (.uniform 8) (.uniform 9)),
    ([0x1C0030C2, 0x40052548], .mma u .e4e5 .d32 .d64 false .quad (.uniform 8) (.uniform 9)),
    ([0x1C0944C2, 0x80052548], .mma u .e5e4 .d64 .d128 false (.core 2) (.uniform 8) (.uniform 9)),
    ([0x1C0E58C2, 0x00052548], .mma u .e5e5 .d128 .d32 false (.tract 3) (.uniform 8) (.uniform 9)),
    ([0x1C0060C2, 0x40052548], .mma u .bf16 .d32 .d64 false .quad (.uniform 8) (.uniform 9)),
    ([0x1C0974C2, 0x80052548], .mma u .f16 .d64 .d128 false (.core 2) (.uniform 8) (.uniform 9)),
    ([0x1C0E88C2, 0x00052548], .mma u .f32 .d128 .d32 false (.tract 3) (.uniform 8) (.uniform 9)),
    ([0x9C0084C2, 0x94A52548], .mmag u .f32 .d64 .d128 false .quad (.uniform 8) (.uniform 9) (.uniform 10))] := by decide

theorem test_decode_tile : decodesTo [
    ([0x1C0000C6, 0x00000000], .acz u),
    ([0x9C0004C6, 0x00880D4A], .acld u (some (.imm 3)) (some .i32) (.uniform 10)),
    ([0x1C0004C6, 0x0070014A], .acld u none (some .f32) (.uniform 10)),
    ([0x1C0008C6, 0x0050014A], .acst u false .rne (some .bf16) (.uniform 10)),
    ([0x9C000CC6, 0x000BF94A], .had u true (.uniform 10) (.imm 0xFE)),
    ([0x1C0010C6, 0x0010014C], .qnt u false false (some .rq8) (.uniform 12)),
    ([0x9C0010C6, 0x4020014C], .qnt u true true (some .rq4) (.uniform 12))] := by decide

theorem test_decode_spot : decodesTo [
    ([0x1C0000CA, 0x0005214A], .snorm u false (.uniform 10) (.uniform 8)),
    ([0x9C0000CA, 0x0005254B], .snorm u true (.uniform 11) (.uniform 9)),
    ([0x1C0004CB, 0x00052D4A, 0x00004000], .salias u.guard 0x4000 (.uniform 10) (.uniform 11)),
    ([0x1E8008CB, 0x01052548, 0x00004000], .spot u.guard 0x4000 .d128 .d128 .b8 .quad (.uniform 8) (.uniform 9) (.hold 4)),
    ([0x1C7908CB, 0x15452548, 0x00000010], .spot u.guard 0x10 .d64 .d32 .b64 (.core 2) (.uniform 8) (.uniform 9) (.uniform 5)),
    ([0x1C140CCA, 0x00000000], .sstat u (.hold 5))] := by decide

theorem test_decode_srr1 : decodesTo [
    ([0x1C0400E2, 0x00000000], .srr u .laneid (hd 4)),
    ([0x1C0400E2, 0x00000001], .srr u .warpslot (hd 4)),
    ([0x1C0400E2, 0x00000002], .srr u .quad (hd 4)),
    ([0x1C0400E2, 0x00000003], .srr u .core (hd 4)),
    ([0x1C0400E2, 0x00000004], .srr u .tract (hd 4)),
    ([0x1C0400E2, 0x00000005], .srr u .die (hd 4)),
    ([0x1C0400E2, 0x00000006], .srr u .groups (hd 4)),
    ([0x1C0400E2, 0x00000007], .srr u .launch (hd 4)),
    ([0x1C0400E2, 0x00000008], .srr u .parcel (hd 4)),
    ([0x1C0400E2, 0x00000009], .srr u .strandpc (hd 4)),
    ([0x1C0400E2, 0x0000000A], .srr u .cspbase (hd 4)),
    ([0x1C0400E2, 0x0000000B], .srr u .cspdepth (hd 4))] := by decide

theorem test_decode_srr2 : decodesTo [
    ([0x1C0400E2, 0x0000000C], .srr u .clock (hd 4)),
    ([0x1C0400E2, 0x0000000D], .srr u .retired (hd 4)),
    ([0x1C0400E2, 0x0000000E], .srr u .caphbm (hd 4)),
    ([0x1C0400E2, 0x0000000F], .srr u .capcxl (hd 4)),
    ([0x1C0400E2, 0x00000010], .srr u .platphase (hd 4)),
    ([0x1C0400E2, 0x00000011], .srr u .spotcnt (hd 4)),
    ([0x1C0400E2, 0x00000012], .srr u .spotvar (hd 4)),
    ([0x1C0400E2, 0x00000013], .srr u .spotnrm (hd 4)),
    ([0x1C0400E2, 0x00000014], .srr u .faultseq (hd 4))] := by decide

theorem test_decode_sys1 : decodesTo [
    ([0x1C0004E2, 0x00000806], .srw u .groups (.hold 2)),
    ([0x1C0008E2, 0x00000000], .cede u),
    ([0x1C0008E2, 0x40000000], .cedeHold u),
    ([0x1C0008E2, 0x80000000], .cedeOpen u),
    ([0x1C000CE2, 0x00088200], .saveHold u (.imm 0) (.imm 32)),
    ([0x1C000CE2, 0x40001404], .saveScr u (.hold 4) (.hold 5)),
    ([0x1C000CE2, 0x80000000], .saveAcc u),
    ([0x1C000CE2, 0xC0000000], .saveTag u),
    ([0x1C0010E2, 0x00000000], .trapretRestart u),
    ([0x1C0010E2, 0x40000000], .trapretSkip u),
    ([0x1C0014E2, 0x20300000], .watchOff u (.imm 3)),
    ([0x1C0014E2, 0x60390008], .watchW u (.hold 8) (.imm 64) (.imm 3))] := by decide

theorem test_decode_sys2 : decodesTo [
    ([0x1C0014E2, 0xA0390008], .watchRw u (.hold 8) (.imm 64) (.imm 3)),
    ([0x1C0018E2, 0x00701804], .profStall u (.hold 4) (.hold 6) (.hold 7)),
    ([0x1C0018E2, 0x40000000], .profStop u),
    ([0x1C0018E2, 0x80701804], .profMem u (.hold 4) (.hold 6) (.hold 7)),
    ([0x1C001CE2, 0x00000000], .nop u)] := by decide

theorem test_decode_handle : decodesTo [
    ([0x1D4800E6, 0x00084400], .thset u (wd 8) (.hold 0) (.imm 17)),
    ([0x1C0004E6, 0x00000148], .thdrop u (.uniform 8))] := by decide

theorem test_decode_compact_int1 : decodesTo [
    ([0x9F420604], .addC (.hold 6) (.near 2) (.imm 0x1F)),
    ([0x9F420608], .subC (.hold 6) (.near 2) (.imm 0x1F)),
    ([0x9F42060C], .mulC (.hold 6) (.near 2) (.imm 0x1F)),
    ([0x9F420610], .mulhC (.hold 6) (.near 2) (.imm 0x1F)),
    ([0x9F420614], .mulhnC (.hold 6) (.near 2) (.imm 0x1F)),
    ([0x9F420618], .minC (.hold 6) (.near 2) (.imm 0x1F)),
    ([0x9F42061C], .maxC (.hold 6) (.near 2) (.imm 0x1F)),
    ([0x9F420620], .minnC (.hold 6) (.near 2) (.imm 0x1F)),
    ([0x9F420624], .maxnC (.hold 6) (.near 2) (.imm 0x1F)),
    ([0x9F420628], .andC (.hold 6) (.near 2) (.imm 0x1F)),
    ([0x9F42062C], .orC (.hold 6) (.near 2) (.imm 0x1F)),
    ([0x9F420630], .xorC (.hold 6) (.near 2) (.imm 0x1F))] := by decide

theorem test_decode_compact_int2 : decodesTo [
    ([0x9F420634], .andnC (.hold 6) (.near 2) (.imm 0x1F)),
    ([0x9F420638], .shlC (.hold 6) (.near 2) (.imm 0x1F)),
    ([0x9F42063C], .shrC (.hold 6) (.near 2) (.imm 0x1F)),
    ([0x9F420640], .sarC (.hold 6) (.near 2) (.imm 0x1F)),
    ([0x9F420644], .rolC (.hold 6) (.near 2) (.imm 0x1F)),
    ([0x9F420648], .rorC (.hold 6) (.near 2) (.imm 0x1F)),
    ([0x9F42064C], .add64C (.hold 6) (.near 2) (.imm 0x1F)),
    ([0x9F420650], .sub64C (.hold 6) (.near 2) (.imm 0x1F)),
    ([0x00420654], .movC (.hold 6) (.near 2)),
    ([0x00420658], .mov64C (.hold 6) (.near 2)),
    ([0x0042065C], .negC (.hold 6) (.near 2)),
    ([0x00420660], .notC (.hold 6) (.near 2))] := by decide

theorem test_decode_compact_int3 : decodesTo [
    ([0x00420664], .popcC (.hold 6) (.near 2)),
    ([0x00420668], .clzC (.hold 6) (.near 2)),
    ([0x0042066C], .ctzC (.hold 6) (.near 2)),
    ([0x00420670], .sext8C (.hold 6) (.near 2)),
    ([0x00420674], .sext16C (.hold 6) (.near 2)),
    ([0x00420678], .zext8C (.hold 6) (.near 2)),
    ([0x0042067C], .zext16C (.hold 6) (.near 2))] := by decide

theorem test_decode_compact_float1 : decodesTo [
    ([0x9F420680], .faddC (.hold 6) (.near 2) (.imm 0x1F)),
    ([0x9F420684], .fsubC (.hold 6) (.near 2) (.imm 0x1F)),
    ([0x9F420688], .fmulC (.hold 6) (.near 2) (.imm 0x1F)),
    ([0x9F42068C], .fminC (.hold 6) (.near 2) (.imm 0x1F)),
    ([0x9F420690], .fmaxC (.hold 6) (.near 2) (.imm 0x1F)),
    ([0x9F420694], .fminpC (.hold 6) (.near 2) (.imm 0x1F)),
    ([0x9F420698], .fmaxpC (.hold 6) (.near 2) (.imm 0x1F)),
    ([0x9F42069C], .fscaleC (.hold 6) (.near 2) (.imm 0x1F)),
    ([0x9F4206A0], .hadd2F16C (.hold 6) (.near 2) (.imm 0x1F)),
    ([0x9F4206A4], .hsub2F16C (.hold 6) (.near 2) (.imm 0x1F)),
    ([0x9F4206A8], .hmul2F16C (.hold 6) (.near 2) (.imm 0x1F)),
    ([0x9F4206AC], .hadd2Bf16C (.hold 6) (.near 2) (.imm 0x1F))] := by decide

theorem test_decode_compact_float2 : decodesTo [
    ([0x9F4206B0], .hsub2Bf16C (.hold 6) (.near 2) (.imm 0x1F)),
    ([0x9F4206B4], .hmul2Bf16C (.hold 6) (.near 2) (.imm 0x1F)),
    ([0x004206B8], .fabsC (.hold 6) (.near 2)),
    ([0x004206BC], .fnegC (.hold 6) (.near 2)),
    ([0x004206C0], .rcpC (.hold 6) (.near 2)),
    ([0x004206C4], .rsqC (.hold 6) (.near 2)),
    ([0x004206C8], .sqrtC (.hold 6) (.near 2)),
    ([0x004206CC], .exp2C (.hold 6) (.near 2)),
    ([0x004206D0], .log2C (.hold 6) (.near 2)),
    ([0x004206D4], .tanhC (.hold 6) (.near 2)),
    ([0x004206D8], .sigmC (.hold 6) (.near 2)),
    ([0x9F4206DC], .divfC (.hold 6) (.near 2) (.imm 0x1F))] := by decide

theorem test_decode_compact_float3 : decodesTo [
    ([0x004206E0], .cvtF32I32C (.hold 6) (.near 2)),
    ([0x004206E4], .cvtI32F32C (.hold 6) (.near 2)),
    ([0x004206E8], .cvtF32F16C (.hold 6) (.near 2)),
    ([0x004206EC], .cvtF16F32C (.hold 6) (.near 2))] := by decide

theorem test_decode_compact_lane : decodesTo [
    ([0x9F4206F0], .shflIdxC (.hold 6) (.near 2) (.imm 0x1F)),
    ([0x9F4206F4], .shflXorC (.hold 6) (.near 2) (.imm 0x1F)),
    ([0xFFFFFEF8], .braC 0xFFFFFE),
    ([0x000000FC], .exitC),
    ([0x60535404], .addC .none (.latch 3) (.uniform 0)),
    ([0xC05E7F04], .addC (.uniform 31) (.special .f1) (.imm 0x40))] := by decide

theorem test_decode_operands : decodesTo [
    ([0x5D140006, 0x00043CFF], .add u .w32 .none (.hold 0xFF) (.near 15)),
    ([0x5CFF0006, 0x00044D10], .add u .w32 (.reg (.hold 0xFF) true) (.latch 0) (.latch 3)),
    ([0x1C05000E, 0x00000115], .mov u .w32 (hd 5) (.special .z)),
    ([0x1C05000E, 0x00000116], .mov u .w32 (hd 5) (.special .lane)),
    ([0x1C05000E, 0x00000117], .mov u .w32 (hd 5) (.special .wslot)),
    ([0x1C05000E, 0x00000118], .mov u .w32 (hd 5) (.special .nthr)),
    ([0x1C05000E, 0x00000119], .mov u .w32 (hd 5) (.special .smask)),
    ([0x1C05000E, 0x0000011A], .mov u .w32 (hd 5) (.special .live)),
    ([0x1C05000E, 0x0000011B], .mov u .w32 (hd 5) (.special .quad)),
    ([0x1C05000E, 0x0000011C], .mov u .w32 (hd 5) (.special .core)),
    ([0x1C05000E, 0x0000011D], .mov u .w32 (hd 5) (.special .clk)),
    ([0x1C05000E, 0x0000011E], .mov u .w32 (hd 5) (.special .f1))] := by decide

/-! ### Witnesses: register instructions -/

theorem witness_IntegerTwoSourceResults : (st regs).operandsOk (aluShape u (.reg (hd 6) false) [(.hold 2, .i32), (.hold 3, .i32)]) ∧
    canCompute (.reg (hd 6) true) [(.hold 2, .i64), (.hold 4, .i64)] ∧ canCompute (.reg (hd 6) true) [(.hold 2, .i64), (.latch 0, .i32)] ∧
    canCompute (.reg (wd 6) false) [(.near 2, .i32), (.imm 3, .i32)] ∧ canCompute (.reg .none false) [(.special .lane, .i32), (.lit, .i32)] := by
  unfold State.operandsOk; decide

theorem witness_IntegerDivisionResults :
    canCompute (.reg (hd 6) true) [(.hold 2, .i64), (.hold 4, .i64)] ∧ canCompute (.reg (nd 6) false) [(.hold 2, .i32), (.imm 0, .i32)] := by
  decide

theorem witness_IntegerThreeSourceResults :
    canCompute (.reg (hd 6) true) [(.hold 2, .i64), (.hold 4, .i64), (.hold 8, .i64)] ∧
    canCompute (.reg (hd 6) true) [(.hold 2, .i64), (.hold 7, .i32), (.imm 3, .i32)] ∧
    canCompute (.reg (hd 6) false) [(.hold 2, .i32), (.hold 3, .i32), (.imm 3, .i32)] := by decide

theorem witness_IntegerOneSourceResults :
    canCompute (.reg (hd 6) true) [(.hold 2, .i64)] ∧ canCompute (.reg (wd 6) false) [(.latch 0, .i32)] := by decide

theorem witness_ComparisonsWriteOnePredicate :
    canCompute (.pred 2) [(.hold 2, .i64), (.hold 4, .i64)] ∧ canCompute (.pred 7) [(.hold 2, .f32), (.imm 1, .f32)] ∧
    canCompute (.pred 0) [(.hold 2, .s16 .bf16), (.imm 1, .s16 .bf16)] := by decide

theorem witness_FloatArithmeticRoundsOnce :
    canCompute (.reg (nd 6) false) [(.hold 2, .f32), (.near 2, .f32), (.uniform 7, .f32)] ∧
    canCompute (.reg (hd 6) false) [(.hold 2, .f32), (.imm 0xFE, .i32)] := by decide

theorem witness_FloatMinimaMaximaAndPackedForms :
    canCompute (.reg (hd 6) false) [(.hold 2, .f32), (.latch 0, .f32)] ∧
    canCompute (.reg (hd 6) false) [(.hold 2, .pair .bf16), (.imm 1, .pair .bf16), (.hold 3, .pair .bf16)] := by decide

theorem witness_FloatOneSourceResults : canCompute (.reg (hd 6) false) [(.hold 2, .f32)] := by decide

theorem witness_ConversionResults :
    canCompute (.reg (hd 6) false) [(.hold 4, .i64)] ∧ canCompute (.reg (hd 6) true) [(.hold 3, .f32)] ∧
    canCompute (.reg (hd 6) false) [(.hold 3, .b8)] ∧ canCompute (.reg (hd 6) false) [(.hold 3, .s16 .f16)] := by decide

theorem witness_CompactIntegerResults :
    canCompute (.reg (Dst8.hold 6).expand true) [((Opd8.hold 2).expand, .i64), ((Opd8.imm 0x40).expand, .i64)] ∧
    canCompute (.reg (Dst8.uniform 6).expand false) [((Opd8.latch 0).expand, .i32)] := by decide

theorem witness_CompactFloatResults :
    canCompute (.reg (Dst8.near 6).expand false) [((Opd8.near 2).expand, .f32), ((Opd8.hold 3).expand, .f32)] ∧
    canCompute (.reg Dst8.none.expand false) [((Opd8.special .f1).expand, .pair .f16), ((Opd8.hold 3).expand, .pair .f16)] := by decide

theorem witness_SpecialFunctionIssue :
    canCompute (.reg (hd 6) false) [(.hold 2, .f32), (.hold 3, .f32)] ∧
    canCompute (.reg (Dst8.uniform 6).expand false) [((Opd8.hold 2).expand, .f32)] := by decide

theorem witness_CrossLaneResults :
    canCompute (.reg (hd 6) true) [(.hold 2, .i64), (.imm 1, .i32)] ∧ canCompute (.pred 3) [] ∧ canCompute (.reg (wd 9) false) [] ∧
    canCompute (.pred 3) [(.hold 2, .i32)] ∧ canCompute (.reg (hd 6) false) [(.hold 2, .f32)] := by decide

theorem witness_LanePushWithinWarp : (∀ r nw, hd 6 ≠ .reg (.uniform r) nw) ∧ (st regs).operandsOk
    { guard := u.guard, srcs := [(.hold 5, 1), (.hold 4, 1)], dsts := (hd 6).regs 1, strand := false, seals := false } := by
  unfold State.operandsOk; exact ⟨nofun, by decide⟩

/-! ### Witnesses: control flow -/

/-- A branch may split a set outside a warp-wide strand; within one it may not, and both lanes here go the same way. -/
theorem witness_BranchesMoveEachLane :
    (st regs).operandsOk (Shape.plain v.guard) ∧ (st regs).iw.wide = false ∧ (st regs).on v.guard = 2 ∧
    (st regs).operandsOk (Shape.reading u.guard [(.hold 4, 2)]) ∧
    (∀ l, l < 32 → hasLane ((st regs).on u.guard) l = true →
      ((Opd.hold 4).val regs (st regs).iss 0 l .i64).toNat % 4 = 0 ∧ canonical ((Opd.hold 4).val regs (st regs).iss 0 l .i64) = true) ∧
    (st regs).operandsOk (Shape.reading u.guard [(.hold 2, 2)]) ∧
    (∀ l, l < 32 → (hasLane 3 l = true ↔ hasLane ((st regs).on u.guard) l = true ∧
      (((Opd.hold 2).val regs (st regs).iss 0 l .i64).toNat % 4 ≠ 0 ∨ canonical ((Opd.hold 2).val regs (st regs).iss 0 l .i64) = false))) := by
  unfold State.operandsOk State.on; decide +kernel

theorem witness_BranchesMoveEachLane_wide :
    (st { regs with wide := true }).operandsOk (Shape.plain u.guard) ∧ (st { regs with wide := true }).on u.guard = 3 := by
  unfold State.operandsOk State.on; decide

/-- A call with an empty and with a part full stack. -/
theorem witness_CallsAndReturnsSeal :
    (st regs).iss.mask ≠ 0 ∧ (st regs).mayIssue (Shape.sealing u.guard []) ∧ (st regs).mayIssue (Shape.sealing u.guard [(.hold 4, 2)]) ∧
    (∀ l, hasLane ((st regs).on u.guard) l = true → ((st regs).iw.thread l).live < 4) := by
  refine ⟨by decide, ?_, ?_, lane_all _ _ (by decide +kernel)⟩ <;> unfold State.mayIssue State.operandsOk <;> decide +kernel

/-- A return with one entry on chip and none in memory, and with all four. -/
theorem witness_CallsAndReturnsSeal_ret :
    let s : State := st { regs with threads := [(0, { th with live := 1 }), (1, { th with live := 4, depth := 9 })] }
    s.mayIssue (Shape.sealing u.guard []) ∧
    ∀ l, hasLane (s.on u.guard) l = true → (s.iw.thread l).live ≠ 0 ∧ ((s.iw.thread l).live = 1 → (s.iw.thread l).depth = 0) := by
  refine ⟨?_, lane_all _ _ ?_⟩
  · unfold State.mayIssue State.operandsOk; decide +kernel
  · decide +kernel

theorem witness_ExitEndsThreads :
    (st regs).mayIssue (exitShape (st regs) u.guard) ∧ (st regs).metKill (st regs).iss.gw ((st regs).on u.guard) = none ∧
    (st regs).on u.guard ≠ 0 ∧ (st regs).iw.live &&& ~~~ (st regs).on u.guard = 0 := by
  unfold State.mayIssue State.operandsOk; decide +kernel

theorem witness_ExitEndsThreads_some :
    (st regs).mayIssue (exitShape (st regs) v.guard) ∧ (st regs).metKill (st regs).iss.gw ((st regs).on v.guard) = none ∧
    (st regs).on v.guard ≠ 0 ∧ (st regs).iw.live &&& ~~~ (st regs).on v.guard ≠ 0 ∧ (st regs).iw.inPre = false := by
  unfold State.mayIssue State.operandsOk; decide +kernel

/-- The hold count is 64: `h63` may be a survivor, `h64` may not. -/
theorem witness_StrandHeaderOpensStrand :
    (st regs).mayIssue { Shape.plain hdrC.guard with strand := true } ∧
    (¬ ∃ k, k < 64 ∧ (0x8000000000000000 : BitVec 64).getLsbD k = true ∧ (st regs).iw.hc ≤ 64 * (0 : BitVec 2).toNat + k) ∧
    ∃ k, k < 64 ∧ (1 : BitVec 64).getLsbD k = true ∧ (st regs).iw.hc ≤ 64 * (1 : BitVec 2).toNat + k := by
  unfold State.mayIssue State.operandsOk; decide +kernel

theorem witness_RejoinMasksAndWaits :
    (st regs).operandsOk (Shape.plain u.guard) ∧ (st regs).iss.mask ≠ 0 ∧ (st regs).mayIssue (Shape.sealing u.guard []) ∧
    (st regs).mayIssue { Shape.sealing u.guard [] with blocks := true } := by
  unfold State.mayIssue State.operandsOk; decide +kernel

/-- Slot 0 is the issuer's own, slot 2 is empty, slot 1 holds a warp whose threads stand at their strand's start. -/
def push : State := { st { regs with uni := [(7, 1), (6, 2)] } with
  warps := [(0, { regs with uni := [(7, 1), (6, 2)] }), (1, wp)], resident := [0, 1] }

theorem witness_LanePushToOtherWarp :
    let sh (slot : Opd) : Shape :=
      { guard := u.guard, srcs := [(.hold 2, 1), (.special .lane, 1), (slot, 1)], dsts := [(.hold 6, 1)], strand := false, seals := true }
    push.iss.mask ≠ 0 ∧ push.mayIssue (sh (.imm 0)) ∧ push.mayIssue (sh (.uniform 6)) ∧ push.mayIssue (sh (.uniform 7)) ∧
    2 ∉ push.resident ∧ 1 ∈ push.resident ∧ push.on u.guard ≠ 0 ∧
    (∀ l, l < 32 → ((push.warp 1).thread l).atPush = false) ∧
    ∀ l, l < 2 → ((push.warp 1).thread l).atBoundary = true ∧ push.holdPending 1 l 6 = false := by
  unfold State.mayIssue State.operandsOk; decide +kernel

/-- A target lane within its strand is not ready. -/
theorem witness_LanePushToOtherWarp_waits :
    let s : State := { push with warps := [(0, regs), (1, { wp with threads := [(0, { th with pc := 0x1008 }), (1, th)] })] }
    hasLane (s.warp 1).live 0 = true ∧ ((s.warp 1).thread 0).atBoundary = false ∧ ((s.warp 1).thread 0).atPush = false := by decide

/-! ### Witnesses: memory -/

/-- Device 1's tables map the 32 MB from address 0 to HBM4E at 0x2000000, all accesses allowed; `w4` to `w7` is a record of 16 elements
of 4 bytes at 0x400, and `w8` to `w11` the same with clamping; lanes 0 and 1 hold index 3 and 5 in `h2`, offset 0x40 and 0x60 in `h3`. -/
def memw : Warp := { wp with
  hold := [(2, 3), (3, 0x40), (258, 5), (259, 0x60)],
  uni := [(4, 0x400), (6, 16), (7, 4), (8, 0x400), (10, 4), (11, 0x04000004)] }

def tables : List Host.Cell := [(0x80002, 0x10), (0x80007, 0x80), (0x100003, 0x02), (0x100007, 0xF4)]

/-- A running parcel with the first 4 KB of the scratchpad and tag entries 0 to 15 on core 0. -/
def parcel : Parcel :=
  { pseq := 2, state := .running, nwp := 1, wfirst := 0, ncore := 1, qpc := 1, early := false, preds := [], wcet := 0, ssize := 4096,
    sbase := 0, tbase := 0, tcount := 16, accv := 1, acc := 0, boxes := [], place := [(0, 0)], quadsAt := [(0, 0)], resumed := false,
    triggered := false, kills := 0, cause := 0, clocks := 0, progress := 0, busy := [], idle := [], ranOn := [], imgScr := [],
    imgTags := [], imgAcc := [], imgFull := [], imgExt := [], imgOut := [] }

def launch : Launch :=
  { vdev := 1, lseq := 5, cls := 0, replay := false, relaunch := false, image := 0, budget := 1000, compl := 0x40000, cqlog := 4,
    ident := 0, rseq := 0, busyT := 0, resume := false, used := 0, clk := 0, key := 0, edit := false, stale := false, rmode := 0, groups := [],
    parcels := [parcel], est := 0, doneW := false, settledW := false, endedW := false }

def mst (w : Warp) : State := { st w with mem := tables, launches := [launch] }

abbrev trLines (s : State) (m : Mask) (r : BufRec) (idx : Nat → Nat) (size : Nat) (write : Bool) : State × List (Nat × TRes) :=
  s.translateLines (dieOfQuad s.iss.quad) s.iw.vdev write (linesOf (locsOf ((laneList m).map (fun l => (l, r.addr (idx l) size)))))

/-- A lane's element is where `key` says, by evaluation. -/
def placedAt (s : State) (r : BufRec) (idx : Nat → Nat) (size : Nat) (write : Bool) (lines : List (Nat × TRes)) (key : Nat → Option Nat)
    (l : Nat) : Bool :=
  match key l, r.addr (idx l) size with
  | none, .clamp => true
  | some k, .loc a => decide ((s.contract s.iw.vdev).watchHit write a size = none) && placeOf lines a == .ok k false
  | _, _ => false

def okLine (x : TRes) : Bool := match x with
  | .ok _ false => true
  | _ => false

theorem reaches_of {s : State} {m : Mask} {r : BufRec} {idx : Nat → Nat} {size : Nat} {write : Bool} {key : Nat → Option Nat}
    (any : m ≠ 0) (good : r.bad write = false) (lines : ∀ x ∈ (trLines s m r idx size write).2, okLine x.2 = true)
    (place : ∀ l, l < 32 → hasLane m l = true → placedAt s r idx size write (trLines s m r idx size write).2 key l = true)
    (clear : (trLines s m r idx size write).1.clear) (unsampled : s.unsampled) :
    s.Reaches m r idx size write (trLines s m r idx size write).1 key := by
  refine ⟨any, good, rfl, fun x hx => ?_, lane_all _ _ fun l hl hm => ?_, clear, unsampled⟩
  · have h := lines x hx
    unfold okLine at h
    split at h
    · exact ⟨_, ‹_›⟩
    · cases h
  · have h := place l hl hm
    unfold placedAt at h
    split at h
    · simp_all
    · simp_all
    · cases h

/-- Elements 3 and 5: the sector at 0x40C and 0x414. -/
theorem witness_DeviceLoadsReadMemory :
    (mst memw).operandsOk { guard := u.guard, srcs := [(.uniform ((1 : BitVec 4).setWidth 6 * 4), 4), (.hold 2, 1)],
                            dsts := (hd 6).regs 1, strand := false, seals := false } ∧
    ∃ t, (mst memw).Reaches ((mst memw).on u.guard) ((mst memw).iw.bufRec 1) (fun l => (memw.getHold l 2).toNat) 4 false t
      (fun l => some (0x200040C + 8 * l)) := by
  refine ⟨by unfold State.operandsOk; decide +kernel, _, reaches_of ?_ ?_ ?_ ?_ ?_ ?_⟩
  all_goals try unfold State.clear
  all_goals try unfold State.unsampled
  all_goals decide +kernel

/-- Through the clamping record of 4 elements, lane 1's index 5 has no place. -/
theorem witness_DeviceLoadsReadMemory_clamp :
    ∃ t, (mst memw).Reaches ((mst memw).on u.guard) ((mst memw).iw.bufRec 2) (fun l => (memw.getHold l 2).toNat) 4 false t
      (fun l => if l = 0 then some 0x200040C else none) := by
  refine ⟨_, reaches_of ?_ ?_ ?_ ?_ ?_ ?_⟩
  all_goals try unfold State.clear
  all_goals try unfold State.unsampled
  all_goals decide +kernel

theorem witness_DeviceStoreWritesMemory :
    (mst memw).operandsOk { guard := u.guard, srcs := [(.uniform ((1 : BitVec 4).setWidth 6 * 4), 4), (.hold 2, 1), (.hold 3, 1)],
                            dsts := [], strand := false, seals := false } ∧
    ∃ t, (mst memw).Reaches ((mst memw).on u.guard) ((mst memw).iw.bufRec 1) (fun l => (memw.getHold l 2).toNat) 4 true t
      (fun l => some (0x200040C + 8 * l)) := by
  refine ⟨by unfold State.operandsOk; decide +kernel, _, reaches_of ?_ ?_ ?_ ?_ ?_ ?_⟩
  all_goals try unfold State.clear
  all_goals try unfold State.unsampled
  all_goals decide +kernel

def spad (off : Nat) : Nat := 3 * 2 ^ 48 + off

/-- Offsets 0x40 and 0x60 of the parcel's extent on core 0, by the own core's form and by the tract's. -/
theorem witness_ScratchpadLoads :
    let s : State := mst memw
    let val (x : Opd) (l : Nat) : Dword := x.val memw s.iss 0 l .i32
    s.operandsOk { guard := u.guard, srcs := [(.hold 3, 1), (.imm 16, 1)], dsts := (hd 6).regs 1, strand := false, seals := false } ∧
    s.ReachesScr (s.on u.guard) (fun l => s.ldsAddr (val (.hold 3) l) (val (.imm 16) l) 4) (fun l => spad (0x50 + 32 * l)) ∧
    s.ReachesScr (s.on u.guard) (fun l => s.ldxAddr 0 (val (.hold 3) l) (val (.imm 16) l) 4) (fun l => spad (0x50 + 32 * l)) ∧
    ∀ l, hasLane (s.on u.guard) l = true → s.ldxWaits 0 (scrOff (val (.hold 3) l) (val (.imm 16) l)) = false := by
  refine ⟨?_, ⟨?_, lane_all _ _ ?_, ?_, ?_⟩, ⟨?_, lane_all _ _ ?_, ?_, ?_⟩, lane_all _ _ ?_⟩
  all_goals try unfold State.operandsOk
  all_goals try unfold State.unsampled
  all_goals decide +kernel

theorem witness_ScratchpadStores :
    let s : State := mst memw
    let val (x : Opd) (l : Nat) : Dword := x.val memw s.iss 0 l .i32
    s.operandsOk { guard := u.guard, srcs := [(.hold 3, 1), (.imm 16, 1), (.hold 4, 2)], dsts := [], strand := false, seals := false } ∧
    s.ReachesScr (s.on u.guard) (fun l => s.ldsAddr (val (.hold 3) l) (val (.imm 16) l) 8) (fun l => spad (0x50 + 32 * l)) ∧
    s.ReachesScr (s.on u.guard) (fun l => s.ldxAddr 0 (val (.hold 3) l) (val (.imm 16) l) 8) (fun l => spad (0x50 + 32 * l)) := by
  refine ⟨?_, ⟨?_, lane_all _ _ ?_, ?_, ?_⟩, ⟨?_, lane_all _ _ ?_, ?_, ?_⟩⟩
  all_goals try unfold State.operandsOk
  all_goals try unfold State.unsampled
  all_goals decide +kernel

/-- `cas` through a record, its compare value in `h4`, its new value in `h5`; and in the scratchpad. -/
theorem witness_AtomicsReadModifyWrite :
    let s : State := mst memw
    let val (x : Opd) (l : Nat) : Dword := x.val memw s.iss 0 l .i32
    s.mayIssue { guard := u.guard, srcs := [(.uniform ((1 : BitVec 4).setWidth 6 * 4), 4), (.hold 2, 1), (.hold 4, Machine.atomSrc .cas .w32)],
                 dsts := (hd 6).regs (Machine.atomRegs .w32), strand := false, seals := true } ∧
    s.mayIssue { guard := u.guard, srcs := [(.hold 3, 1), (.imm 0, 1), (.hold 4, Machine.atomSrc .cas .w32)],
                 dsts := (hd 6).regs (Machine.atomRegs .w32), strand := false, seals := true } ∧
    (∃ t, s.Reaches (s.on u.guard) (s.iw.bufRec 1) (fun l => (memw.getHold l 2).toNat) 4 true t (fun l => some (0x200040C + 8 * l))) ∧
    s.ReachesScr (s.on u.guard) (fun l => s.ldsAddr (val (.hold 3) l) (val (.imm 0) l) 4) (fun l => spad (0x40 + 32 * l)) := by
  refine ⟨?_, ?_, ⟨_, reaches_of ?_ ?_ ?_ ?_ ?_ ?_⟩, ⟨?_, lane_all _ _ ?_, ?_, ?_⟩⟩
  all_goals try unfold State.mayIssue
  all_goals try unfold State.operandsOk
  all_goals try unfold State.clear
  all_goals try unfold State.unsampled
  all_goals decide +kernel

/-- A load of lane 1 in flight. -/
def flight (k : FKind) : Flight :=
  { id := 3, kind := k, gw := 0, mask := 2, own := (1, 5, 2), iss := (st regs).iss, due := 12, exact := false, writes := [.hold 262 77],
    kill := 0, killed := 0, spc := 0x1000, behind := [], swaths := [], sects := [0x100020], clo := none, sealed := false, spot := none,
    sample := none }

theorem witness_FenceWaitsForAccesses :
    (st regs).operandsOk (Shape.plain u.guard) ∧ (st regs).flights = [] ∧ (st regs).held = [] ∧
    let s : State := { st regs with flights := [flight .load] }
    s.operandsOk (Shape.plain u.guard) ∧ ∃ f ∈ s.flights, f.gw = s.iss.gw ∧ f.mask &&& s.on u.guard ≠ 0 ∧ f.kind = .load := by
  unfold State.operandsOk; decide +kernel

/-- The last slot of the declared range and the first beyond it. -/
theorem witness_TagTableOperations :
    let s : State := mst memw
    s.on u.guard ≠ 0 ∧ s.operandsOk { guard := u.guard, srcs := [(.hold 2, 1)], dsts := (hd 6).regs 1, strand := false, seals := false } ∧
    s.operandsOk (Shape.reading u.guard [(.hold 2, 1), (.hold 3, 1), (.hold 2, 1)]) ∧
    (∀ l, l < 32 → hasLane (s.on u.guard) l = true → s.tagOut ((Opd.hold 2).val memw s.iss 0 l .i32).toNat = false) ∧
    s.operandsOk (Shape.reading u.guard [(.imm 16, 1)]) ∧ s.tagOut 15 = false ∧ s.tagOut 16 = true := by
  unfold State.operandsOk; decide +kernel

/-! ### Witnesses: exceptions -/

theorem witness_TrapsAndBreakpointsStopThreads :
    (mst regs).on v.guard ≠ 0 ∧ (mst regs).iw.enters ((mst regs).on v.guard) = true ∧
    (mst regs).operandsOk (Shape.reading v.guard [(.imm 5, 1)]) ∧ (mst regs).operandsOk (Shape.plain v.guard) ∧
    ((mst regs).contract 1).attached = false ∧
    let s : State := { mst regs with contracts := [(1, { Contract.init with v := true, attached := true })] }
    s.operandsOk (Shape.plain u.guard) ∧ s.on u.guard ≠ 0 ∧ (s.contract s.iw.vdev).attached = true := by
  unfold State.operandsOk; decide +kernel

theorem witness_UnhandledErrorEndsParcel :
    let s : State := mst { regs with handler := 0 }
    s.operandsOk (Shape.reading u.guard [(.hold 2, 1)]) ∧ s.on u.guard ≠ 0 ∧ s.iw.enters (s.on u.guard) = false ∧
    s.parcel? s.iw.vdev s.iw.lseq s.iw.pseq = some parcel := by
  unfold State.operandsOk; decide +kernel

theorem witness_TrapReturnRestores :
    let tr : TrapState := { TrapState.init with pc := 0x1008, len := 2, rpc := 0x1000, inTrap := true }
    let s : State := st { regs with threads := [(0, { th with trap := tr }), (1, th)], pred := [(1, 2)] }
    s.operandsOk (Shape.plain v.guard) ∧ s.on v.guard = 1 ∧
    ∀ l, hasLane (s.on v.guard) l = true → (s.iw.thread l).trap.inTrap = true := by
  refine ⟨?_, ?_, lane_all _ _ ?_⟩
  all_goals try unfold State.operandsOk
  all_goals decide +kernel

def record : Rec :=
  { Rec.of 0x20 24575 3 1 5 0x1008 0x1000 with hndl := true, pages := List.replicate 8 0x30000 }

theorem witness_FaultRecordLayout : record.gw < 24576 ∧ record.pages.length ≤ 8 ∧ record.d3 = none := by decide

/-- Each check of R59 with everything before it in order: a missing header, `h64`, a survivor, an unwritten near register. -/
theorem witness_OperandCheckOrder :
    let sh : Shape := { guard := u.guard, srcs := [(.near 3, 1)], dsts := [(.hold 9, 1)], strand := false, seals := false }
    let due : Warp := { regs with threads := [(0, { th with needHdr := true }), (1, th)] }
    let live : Warp := { regs with threads := [(0, { th with survM := 0x200 }), (1, th)] }
    (sh.strand = false ∧ hasLane 3 0 = true ∧ (due.thread 0).needHdr = true) ∧
    (∀ l, l < 2 → (live.thread l).needHdr = false) ∧ live.hc < (DReg.hold 64).holdTop 1 ∧ ¬ live.hc < (DReg.hold 63).holdTop 1 ∧
    (live.thread 0).survives 9 = true ∧ (∀ l, l < 2 → (regs.thread l).survives 9 = false) ∧
    (∀ l, l < 2 → (Opd.near 3).stale regs l 1 = true ∧ (Opd.near 2).stale regs l 1 = false) := by
  decide +kernel

/-- Another member of the gang of group 0 has not come to its strand's end. -/
theorem witness_StrandEndsWaitAndCommit :
    let w : Warp := { regs with groups := 0x8, gangGrps := [0], wide := true }
    let s : State := { mst w with warps := [(0, w), (1, w)], resident := [0, 1] }
    s.operandsOk { Shape.sealing u.guard [] with blocks := true } ∧ s.iw.wide = true ∧ s.iw.trapWide = false ∧ s.iw.gangGrps ≠ [] ∧
    ∃ x ∈ s.gangOthers s.iss.gw, (s.warp x).gangEnd = false := by
  unfold State.operandsOk; decide +kernel

theorem witness_StrandEndsWaitAndCommit_end :
    (mst regs).launches = [launch] ∧ launch.replay = false ∧ (mst regs).iw.wide = false ∧ (mst { regs with wide := true }).iw.wide = true := by
  decide +kernel

/-! ### Witnesses: special registers, the system family, closures, handles -/

theorem witness_SpecialRegisterReads :
    (Target.reg (hd 4) true).ok = true ∧ (mst regs).operandsOk (aluShape u (.reg (hd 4) true) []) ∧ (mst regs).iss.slot < 16 ∧
    (mst regs).iss.quad < 1536 ∧ (mst regs).iw.vdev < 65536 ∧ (mst regs).iw.lq < 16 ∧ (mst regs).iw.pseq < 1024 ∧
    ((mst regs).iw.thread 1).live ≤ 4 := by
  unfold State.operandsOk; decide +kernel

theorem witness_SystemStrandInstructions :
    (mst regs).operandsOk (Shape.plain u.guard) ∧ (mst regs).iss.mask ≠ 0 ∧ (mst regs).mayIssue (Shape.sealing u.guard [(.hold 2, 2)]) ∧
    (mst regs).mayIssue (Shape.sealing u.guard []) ∧ (mst regs).on u.guard ≠ 0 ∧ (mst regs).iw.inPre = false := by
  unfold State.mayIssue State.operandsOk; decide +kernel

/-- Plain `CEDE` of the whole warp in the pre-emption handler, and of one of its two threads. -/
theorem witness_SystemStrandInstructions_cede :
    let s : State := mst { regs with inPre := true }
    s.mayIssue (Shape.sealing u.guard []) ∧ s.mayIssue (Shape.sealing v.guard []) ∧ s.on u.guard = s.iw.live ∧ s.on v.guard ≠ s.iw.live ∧
    s.on v.guard ≠ 0 ∧ s.iw.inPre = true := by
  unfold State.mayIssue State.operandsOk; decide +kernel

/-- `h16` to `h63`, up to the hold count; the last 16 bytes of the extent. -/
theorem witness_SaveNamesState :
    let s : State := mst { memw with inPre := true, hold := [(2, 16), (3, 48), (4, 4080), (5, 16)] }
    s.wholeWarp u.guard ∧ s.iss.mask ≠ 0 ∧ s.iw.inPre = true ∧ s.mayIssue (Shape.sealing u.guard [(.hold 2, 1), (.hold 3, 1)]) ∧
    (s.wideStart.handleOf u (.hold 2)).toNat + (s.wideStart.handleOf u (.hold 3)).toNat = s.iw.hc ∧
    (s.wideStart.handleOf u (.hold 3)).toNat ≠ 0 ∧
    s.wideStart.scratch s.wideStart.iw 0 (s.wideStart.handleOf u (.hold 4)).toNat (s.wideStart.handleOf u (.hold 5)).toNat =
      some (spad 4080) ∧
    s.wideStart.writesInto (spad 4080) 16 = false ∧ s.badW = [] ∧ s.lost = [] ∧ s.badSec = [] ∧
    s.mayIssue (Shape.sealing u.guard []) ∧ s.isAccWarp s.iss.gw = true := by
  unfold State.wholeWarp State.mayIssue State.operandsOk State.on; decide +kernel

/-- Slot 7 is the last; a range that ends at the last address; slot 8 and length 0 are refused. -/
theorem witness_WatchSlotsAndSamplers :
    let s : State := mst { memw with hold := [(4, 0xFFFFFFC0), (5, 0xFFFFFFFF), (260, 0xFFFFFFC0), (261, 0xFFFFFFFF)] }
    let op (o : Opd) (ty : Ty) : Dword := o.val s.iw s.iss 0 (lowest (s.on u.guard)) ty
    s.on u.guard ≠ 0 ∧ s.operandsOk (Shape.reading u.guard [(.hold 4, 2), (.imm 64, 1), (.imm 7, 1)]) ∧
    (lo32 (op (.imm 7) .i32)).toNat = 7 ∧ canonical (op (.hold 4) .i64) = true ∧ (op (.hold 4) .i64).toNat % 2 ^ 57 + 64 = 2 ^ 57 ∧
    8 ≤ (lo32 (op (.imm 8) .i32)).toNat ∧ (lo32 (op (.imm 0) .i32)).toNat = 0 := by
  unfold State.operandsOk; decide +kernel

/-- A stall sampler of the shortest period and of one record at 0x400. -/
theorem witness_WatchSlotsAndSamplers_start :
    let s : State := mst { memw with hold := [(4, 0x400), (260, 0x400)] }
    let smp : Sampler :=
      { mode := 1, vdev := 1, base := 0x400, per := 16, cap := 1, fill := 0, drop := 0, start := 10, count := 0, next := 0 }
    s.operandsOk (Shape.reading u.guard [(.hold 4, 2), (.imm 16, 1), (.imm 1, 1)]) ∧
    (Opd.hold 4).val s.iw s.iss 0 (lowest (s.on u.guard)) .i64 = 0x400 ∧
    (s.feStore (dieOfQuad s.iss.quad) s.iw.vdev 0x400 (dwordBytes smp.header)).2.isOk = true ∧
    s.operandsOk (Shape.plain u.guard) ∧ s.held = [] := by
  unfold State.operandsOk; decide +kernel

/-- A closure at offset 0x40 of the own core: E = 2, one arrival. -/
def clo (ph : Nat) : List Host.Cell :=
  tables ++ [(spad 0x46, 2), (spad 0x48, 1)] ++ (if ph = 0 then [] else [(spad 0x4A, 0x81)]) ++ (if ph = 0 then [(spad 0x4A, 0x80)] else [])

theorem witness_ClosureOperations :
    let s : State := { mst memw with mem := clo 0 }
    let at' : Nat := (lo32 ((Opd.imm 0x40).val memw s.iss 0 0 .i32) + lo32 ((Opd.imm 0).val memw s.iss 0 0 .i32)).toNat
    let d1 : Dword := BitVec.ofNat 64 (s.valueAt (spad 0x40 + 8) 8)
    s.on u.guard ≠ 0 ∧ at' = 0x40 ∧ s.tractKey false at' 16 = some (spad 0x40) ∧ s.badW = [] ∧ s.tractPlace false at' = some (0, 0x40) ∧
    (s.core 0).survey = .none ∧ s.mayIssue (Shape.sealing u.guard [(.imm 0x40, 1), (.imm 0, 1), (.hold 2, 1)]) ∧
    s.mayIssue { Shape.sealing u.guard [(.imm 0x40, 1), (.imm 0, 1), (.hold 2, 1)] with blocks := true } ∧
    d1.getLsbD 23 = true ∧ field (BitVec.ofNat 64 (s.valueAt (spad 0x40) 8)) 63 48 = 2 ∧ field d1 15 0 + laneCount (s.on u.guard) = 3 ∧
    s.fencePending .rel s.iss.gw (s.on u.guard) = false ∧ launch.replay = false ∧
    s.operandsOk (Shape.reading u.guard [(.imm 0x40, 1), (.imm 0, 1), (.hold 2, 1)]) := by
  unfold State.mayIssue State.operandsOk; decide +kernel

/-- Bytes of zeros are no closure: `V` and E are 0. -/
theorem witness_ClosureOperations_dead :
    let s : State := mst memw
    s.tractKey false 0x40 16 = some (spad 0x40) ∧ (s.core 0).survey = .none ∧ (BitVec.ofNat 64 (s.valueAt (spad 0x48) 8) : Dword).getLsbD 23 = false := by
  decide +kernel

theorem witness_TriggersMarkThreads :
    let s : State := mst regs
    s.iss.mask ≠ 0 ∧ s.mayIssue (Shape.sealing u.guard []) ∧ hasLane (s.on u.guard) 0 = true ∧ hasLane s.iw.live 0 = true ∧
    (s.iw.thread 0).trig = false ∧ s.flights = [] ∧ s.held = [] ∧ s.iw.wide = false ∧ launch.replay = false := by
  unfold State.mayIssue State.operandsOk; decide +kernel

/-! ### Witnesses: engines and handles -/

/-- The tensor table of device 1: slot 3 a device matrix of 2 rows of 4 FP32 elements at 0x400, slot 4 an index vector of 2 at
scratchpad 0x100, slot 5 a 32 by 1 FP32 matrix at 0x400, slot 6 a 1 by 32 one at 0x800, slot 7 an INT32 tile of 2 by 4 at 0x200, slot 8
an RQ8 tile of 2 by 4 at 0x240 with scale bytes at 0x280, slots 9 and 10 FP32 vectors of 1 at 0x900 and 0x940. -/
def d0 (rank fmt loc had : Nat) : Dword :=
  BitVec.ofNat 64 (2 ^ 44 + 2 ^ 43 + rank * 2 ^ 40 + fmt * 2 ^ 36 + loc * 2 ^ 34 + had * 2 ^ 32)
def dims (x y : Nat) : Dword := BitVec.ofNat 64 (y * 2 ^ 32 + x)
def ent3 : List Dword := [d0 2 6 0 0, 0x400, 0, dims 4 2, 0, dims 0 16, 0, 0]
def ent4 : List Dword := [d0 1 7 1 0, 0x100, 0, dims 2 0, 0, 0, 0, 0]
def ent5 : List Dword := [d0 2 6 1 0, 0x400, 0, dims 1 32, 0, dims 0 16, 0, 0]
def ent6 : List Dword := [d0 2 6 1 0, 0x800, 0, dims 32 1, 0, dims 0 128, 0, 0]
def ent7 : List Dword := [d0 2 7 1 1, 0x200, 0, dims 4 2, 0, dims 0 16, 0, 0]
def ent8 : List Dword := [d0 2 0 1 0, 0x240, 0x280, dims 4 2, 0, dims 0 16, 0, dims 0 16]
def ent9 : List Dword := [d0 1 6 1 0, 0x900, 0, dims 1 0, 0, 0, 0, 0]
def ent10 : List Dword := [d0 1 6 1 0, 0x940, 0, dims 1 0, 0, 0, 0, 0]

/-- Handle of slot n in generation 1, in `w`(20+n). -/
def tst (w : Warp) : State :=
  let s : State := { mst w with mem := tables }
  [(3, ent3), (4, ent4), (5, ent5), (6, ent6), (7, ent7), (8, ent8), (9, ent9), (10, ent10)].foldl (fun x e => x.setEntry 1 e.1 e.2) s

def tw : Warp := { memw with uni := (List.range 11).map (fun n => (20 + n, BitVec.ofNat 32 (4096 + n))) }
def hn (n : Nat) : Opd := .uniform (BitVec.ofNat 6 (20 + n))

theorem test_entries_live :
    [3, 4, 5, 6, 7, 8, 9, 10].map (fun n => (tst tw).live? 1 (BitVec.ofNat 32 (4096 + n))) =
      [some ent3, some ent4, some ent5, some ent6, some ent7, some ent8, some ent9, some ent10] ∧
    [ent3, ent4, ent5, ent6, ent7, ent8, ent9, ent10].all entOk = true := by decide +kernel

/-- `CPY.out.row` of row coordinate `h2`; the region at 0x40; a closure at 0x60 is not there. -/
theorem witness_EngineInstructionsQueueJobs :
    let s : State := tst tw
    let q : EngReq := { kind := .cpyOut, x := false, clo := none, a := .hold 3, b := hn 3, v := none, box := none, reg := some (.hold 2) }
    s.mayIssue (Shape.sealing u.guard q.srcs) ∧ s.on u.guard ≠ 0 ∧ s.live? 1 0x1003 = some ent3 ∧ s.live? 1 0x1002 = none ∧
    s.live? 1 0x2003 = none ∧ q.badTensor ent3 [] = false ∧ (memw.getHold 0 3).toNat % 16 = 0 ∧
    s.engRegion false (memw.getHold 0 3).toNat (q.bytes ent3 []) = some (spad 0x40, 0, 0x40) ∧ s.coordBeyond q ent3 = false ∧
    s.coordStale q ent3 0 = false ∧ s.coordsPending q ent3 0 = false ∧ s.jobs = [] := by
  unfold State.mayIssue State.operandsOk; decide +kernel

/-- `GATH` through the index vector, and `COLL`; each against a closure at 0x60. -/
theorem witness_EngineInstructionsQueueJobs_gath :
    let s : State := { tst tw with mem := (tst tw).mem ++ [(spad 0x66, 2), (spad 0x6A, 0x80)] }
    let q : EngReq := { kind := .gath, x := false, clo := some (.imm 0x60), a := .hold 3, b := hn 3, v := some (hn 4), box := none, reg := none }
    let r : EngReq := { kind := .coll, x := false, clo := some (.imm 0x60), a := .hold 3, b := hn 3, v := none, box := none, reg := none }
    s.mayIssue (Shape.sealing u.guard q.srcs) ∧ s.mayIssue (Shape.sealing u.guard r.srcs) ∧ s.live? 1 0x1003 = some ent3 ∧
    s.live? 1 0x1004 = some ent4 ∧ q.badTensor ent3 ent4 = false ∧ r.badTensor ent3 [] = false ∧
    (s.matRegion? ent4 1 (entDim ent4 0)).isSome = true ∧
    (s.engRegion false 0x40 (q.bytes ent3 ent4)).isSome = true ∧ (s.engRegion false 0x40 (r.bytes ent3 [])).isSome = true ∧
    s.engRegion false 0x60 16 = some (spad 0x60, 0, 0x60) ∧ cloBad (s.cloD0 (spad 0x60)) (s.cloD1 (spad 0x60)) = false := by
  unfold State.mayIssue State.operandsOk; decide +kernel

/-- The queue of a tract with 64 jobs. -/
def someJob : Job :=
  { id := 2, tract := 0, kind := .cpyIn, gw := 0, mask := 1, pc := 0x1000, spc := 0x1000, vdev := 1, lseq := 5, pseq := 2, jseq := 1,
    handle := 0x1003, entry := ent3, ientry := [], sCore := 0, sOff := 0x40, sKey := spad 0x40, clo := none, e0 := 4, e1 := 1, c0 := 0,
    cs := [1, 0, 0, 0], coord := [0, 1], ik := 0, idx := [], desc := [], state := .queued, next := 0, back := [], moved := 0, subbed := 0,
    fseq := 0, landed := [], sent := false, flits := [], box := none }

theorem witness_EngineInstructionsQueueJobs_full :
    ((List.replicate 64 someJob).filter (fun j => j.tract == (tst tw).iss.quad / 16)).length = 64 := by decide +kernel

/-- The descriptor at 0x40 of the extent is that of slot 7; slot 4095 is the last. -/
theorem witness_HandlesMadeAndDropped :
    let s : State := (tst tw).setBytes (spad 0x40) (dwordBytes ent7)
    s.iss.mask ≠ 0 ∧ (wd 8).lanes s.iss.mask (s.on u.guard) ≠ 0 ∧
    s.mayIssue { guard := u.guard, srcs := [(.hold 3, 1), (.lit, 1)], dsts := (wd 8).regs 1, strand := false, seals := true } ∧
    s.scratch s.iw (s.iss.quad / 4) 0x40 64 = some (spad 0x40) ∧ s.badW = [] ∧
    (lo32 (Opd.lit.val s.iw s.iss 4095 0 .i32)).toNat < 4096 ∧ entOk (s.dwords (spad 0x40) 8) = true := by
  unfold State.mayIssue State.operandsOk; decide +kernel

theorem witness_HandlesMadeAndDropped_drop :
    let s : State := tst tw
    let e (name : Nat) : List Dword := s.dwords ((s.contract s.iw.vdev).ttbase.toNat + 64 * (name % 4096)) 8
    s.mayIssue (Shape.sealing u.guard [(hn 3, 1)]) ∧ s.on u.guard ≠ 0 ∧ ((e 0x1003).getD 0 0).getLsbD 43 = true ∧
    ((e 0x1003).getD 0 0).toNat / 2 ^ 44 = 0x1003 / 4096 ∧ ((e 0x1002).getD 0 0).getLsbD 43 = false := by
  unfold State.mayIssue State.operandsOk; decide +kernel

/-! ### Witnesses: matrix, tile and spot -/

theorem witness_AccumulatorClearedLoadedTransformed :
    let s : State := tst tw
    s.wholeWarp u.guard ∧ s.isAccWarp s.iss.gw = true ∧ s.operandsOk (wideShape u.guard []) ∧
    s.operandsOk (wideShape u.guard [(hn 7, 1), (.imm 3, 1)]) ∧ s.live? s.iw.vdev (s.handleOf u (hn 7)) = some ent7 ∧
    (s.matRegion? ent7 (entRows ent7) (entCols ent7)).isSome = true ∧ s.badW = [] ∧ tileOk ent7 (some .i32) = true ∧ entFmt ent7 = 7 ∧
    (s.handleOf u (.imm 3)).toNat ≤ 255 ∧ tileOk ent7 none = true ∧ entHad ent7 ≠ 0 ∧ (s.quad s.iss.quad).work.l = 0 := by
  unfold State.wholeWarp State.operandsOk State.on; decide +kernel

theorem witness_AccumulatorStored :
    let s : State := tst tw
    s.wholeWarp u.guard ∧ s.isAccWarp s.iss.gw = true ∧ s.operandsOk (wideShape u.guard [(hn 7, 1)]) ∧
    s.live? s.iw.vdev (s.handleOf u (hn 7)) = some ent7 ∧ (s.matRegion? ent7 (entRows ent7) (entCols ent7)).isSome = true ∧ s.badW = [] ∧
    tileOk ent7 (some .i32) = true ∧ entFmt ent7 = 7 ∧
    s.live? s.iw.vdev (s.handleOf u (hn 8)) = some ent8 ∧ (s.matRegion? ent8 (entRows ent8) (entCols ent8)).isSome = true ∧
    tileOk ent8 (some .rq8) = true ∧ entFmt ent8 = 0 ∧ (s.scaleRegion? ent8 (entRows ent8) 1).isSome = true ∧
    (s.quad s.iss.quad).work.l = 0 := by
  unfold State.wholeWarp State.operandsOk State.on; decide +kernel

/-- `MMA.f32.m32n32` of a column by a row. -/
theorem witness_MatrixProducts :
    let s : State := tst tw
    let x : Mat := { pair := .f32, m := 32, n := 32, keep := false, gang := 0, ea := ent5, eb := ent6, ie := none }
    s.wholeWarp u.guard ∧ s.isAccWarp s.iss.gw = true ∧ s.operandsOk (wideShape u.guard [(hn 5, 1), (hn 6, 1)]) ∧
    s.live? s.iw.vdev (s.handleOf u (hn 5)) = some ent5 ∧ s.live? s.iw.vdev (s.handleOf u (hn 6)) = some ent6 ∧
    s.entries? [s.handleOf u (hn 1), s.handleOf u (hn 6)] = none ∧ x.bad (s.quad 0).work = false ∧ (s.matFoot x).isSome = true ∧
    s.badW = [] ∧ ({ x with n := 64 } : Mat).bad (s.quad 0).work = true := by
  unfold State.wholeWarp State.operandsOk State.on; decide +kernel

/-- A matrix of 17 rows of 256 bytes does not fit the extent; an absent pair is E4M3 by E5M2. -/
theorem witness_MatrixProducts_stops :
    let s : State := tst tw
    let big : List Dword := [d0 2 6 1 0, 0x400, 0, dims 1 32, 0, dims 0 128, 0, 0]
    let x : Mat := { pair := .f32, m := 32, n := 32, keep := false, gang := 0, ea := big, eb := ent6, ie := none }
    let e2 : List Dword := [d0 2 2 1 0, 0x400, 0, dims 1 32, 0, dims 0 16, 0, 0]
    let e3 : List Dword := [d0 2 3 1 0, 0x800, 0, dims 32 1, 0, dims 0 128, 0, 0]
    let y : Mat := { pair := .e4e5, m := 32, n := 32, keep := false, gang := 0, ea := e2, eb := e3, ie := none }
    x.bad (s.quad 0).work = false ∧ s.matFoot x = none ∧ y.bad (s.quad 0).work = false ∧ (s.matFoot y).isSome = true := by
  decide +kernel

/-- A gang of the core: four accumulator warps in group 5. -/
def gangState (waiting : Option GangWait) : State :=
  let w : Warp := { tw with groups := 0x100000005 }
  let wide : List Dword := [d0 2 6 1 0, 0x400, 0, dims 1 64, 0, dims 0 16, 0, 0]
  let high : List Dword := [d0 2 6 1 0, 0x800, 0, dims 64 1, 0, dims 0 256, 0, 0]
  let s : State := ((tst tw).setEntry 1 5 wide).setEntry 1 6 high
  { s with
    warps := [(0, w), (16, { w with lq := 1, gang := waiting }), (32, { w with lq := 2, gang := waiting }),
      (48, { w with lq := 3, gang := waiting })],
    resident := [0, 16, 32, 48],
    launches := [{ launch with
      groups := [(5, BitVec.ofNat 64 (4 * 2 ^ 32))],
      parcels := [{ parcel with accv := 15, quadsAt := [(0, 0), (1, 1), (2, 2), (3, 3)], qpc := 4 }] }] }

def gangMat : Mat :=
  { pair := .f32, m := 32, n := 32, keep := false, gang := 1, ea := (gangState none).dwords 0x200140 8,
    eb := (gangState none).dwords 0x200180 8, ie := none }

theorem witness_MatrixProducts_gang :
    let s : State := gangState none
    s.gangGroup (gangCode (.core 0)) (gangSlot (.core 0)) = .ok 5 ∧ gangCode (.core 0) = 1 ∧ gangMat.bad (s.quad 0).work = false ∧
    (s.matFoot gangMat).isSome = true ∧ (List.range 4).filterMap s.iw.group? = [5] ∧
    (∃ y ∈ s.members s.iw 5, y ≠ s.iss.gw ∧ s.gangAt y = none) ∧ s.iss.gw ∈ s.resident ∧ s.iw.inGroup 5 = true := by
  decide +kernel

/-- The others wait with the same key, or with another. -/
def gangWaiter (key : List Nat) : GangWait :=
  { iss := { (st regs).iss with quad := 1 }, ins := .nop u, group := 5, key := key, ents := [], vals := [] }

theorem witness_MatrixProducts_last :
    let key : List Nat := [0, (pairFmts .f32).1, (pairFmts .f32).2, 32, 32, 0, 1, 0x1005, 0x1006]
    let s : State := gangState (some (gangWaiter key))
    let r : State := gangState (some (gangWaiter [1]))
    (∀ y ∈ (s.members s.iw 5).filter (fun y => y != s.iss.gw),
      (s.gangAt y).any (fun q => q.group == 5 && q.key == key) = true) ∧
    (∀ y ∈ (r.members r.iw 5).filter (fun y => y != r.iss.gw),
      (r.gangAt y).any (fun q => q.group == 5 && q.key != key) = true) ∧ (r.members r.iw 5).length = 4 := by
  decide +kernel

/-- Norms and table: one entry, both vectors of one element; the spot product 32 by 32 of one sample. -/
theorem witness_SpotInstructions :
    let s : State := tst tw
    let m : List Dword := [d0 2 6 1 0, 0x400, 0, dims 1 32, 0, dims 0 16, 0, 0]
    let g : Guard := u.guard
    s.wholeWarp g ∧ s.isAccWarp s.iss.gw = true ∧ s.operandsOk (wideShape g [(hn 9, 1), (hn 5, 1)]) ∧ m = ent5 ∧
    spotBadMat ent5 = false ∧ spotBadVec ent9 = false ∧ entDim ent9 0 = entCols ent5 ∧ s.matRegion? ent5 32 1 = some (spad 0x400, spad 0x5F4) ∧
    (s.matRegion? ent9 1 1).isSome = true ∧ spotBadVec ent10 = false ∧ entDim ent10 0 = 1 ∧
    s.scratch s.iw 0 0x140 32 = some (spad 0x140) ∧ (s.matRegion? ent10 1 1).isSome = true := by
  unfold State.wholeWarp State.operandsOk State.on; decide +kernel

def spotState : State :=
  { (tst { tw with hold := [(18, 1), (19, 0x3F800000)] }).setBytes (spad 0x140) [1] with flights := [flight .load] }

theorem witness_SpotInstructions_spot :
    let s : State := spotState
    let d0 : Dword := BitVec.ofNat 64 (s.valueAt (spad 0x140) 8)
    let d1 : Dword := BitVec.ofNat 64 (s.valueAt (spad 0x148) 8)
    s.operandsOk (wideShape u.guard [(hn 5, 1), (hn 6, 1), (spotGroupOpd (.hold 4), 4)]) ∧ (s.spotPar (.hold 4)).smax = 1 ∧
    s.scratch s.iw 0 0x140 16 = some (spad 0x140) ∧ field d0 16 0 = 1 ∧ (s.scratch s.iw 0 0x150 16).isSome = true ∧
    spotBad (s.quad 0).work ent5 ent6 d0 d1 32 32 1 (s.spotPar (.hold 4)).smax = false ∧
    (s.matRegion? ent5 (entRows ent5) (entCols ent5)).isSome = true ∧ (s.matRegion? ent6 (entRows ent6) (entCols ent6)).isSome = true ∧
    s.wholeWarp u.guard ∧ s.isAccWarp s.iss.gw = true ∧
    s.operandsOk { guard := u.guard, srcs := [], dsts := [(statReg (.hold 5), 4)], strand := false, seals := false } := by
  unfold State.wholeWarp State.operandsOk State.on; decide +kernel

theorem witness_SpotInstructions_gang :
    let s : State := (gangState none).setBytes (spad 0x140) [1]
    let d0 : Dword := BitVec.ofNat 64 (s.valueAt (spad 0x140) 8)
    s.gangGroup (gangCode (.core 0)) (gangSlot (.core 0)) = .ok 5 ∧ s.scratch s.iw 0 0x140 16 = some (spad 0x140) ∧
    spotBad (s.quad 0).work gangMat.ea gangMat.eb d0 0 32 32 (gangSide 1) 1 = false ∧
    (∃ y ∈ s.members s.iw 5, y ≠ s.iss.gw ∧ s.gangAt y = none) := by
  decide +kernel

/-! ### Witnesses: events -/

/-- A quadrant whose clock has passed the end of what is in flight. -/
def fly (f : Flight) : State := { mst regs with flights := [f], quads := [(0, { Quad.init with clock := 12 })] }

theorem witness_OperationsInFlightEnd :
    (∀ k ∈ [FKind.sfu, .load, .atomic, .tagq, .matrix, .thset, .emulate, .closure, .store, .thdrop, .watch],
      (fly (flight k)).flights.find? (fun x => x.id == 3 && x.kind == k) = some (flight k) ∧
      (fly (flight k)).flights.find? (fun x => x.id == 4 && x.kind == k) = none) ∧
    (flight .load).due ≤ ((fly (flight .load)).quad 0).clock ∧ (flight .load).behind = [] ∧ (flight .load).swaths = [] ∧
    (flight .load).kill = 0 ∧ (∀ x ∈ (flight .load).sects, x ∉ (fly (flight .load)).lost) ∧
    ¬ (flight .load).due ≤ (({ fly (flight .load) with quads := [(0, { Quad.init with clock := 11 })] } : State).quad 0).clock := by
  decide +kernel

/-- A read that meets a bad word, one of a sector lost meanwhile, a spot run, a closure operation. -/
theorem witness_OperationsInFlightEnd_others :
    let kill : Flight := { flight .load with kill := 0x11 }
    let late : State := { fly (flight .load) with lost := [0x100020] }
    let r : CloReq := { op := .arrive, x := false, t := 0x40, g := 2 }
    let c : Flight := { flight .closure with clo := some r }
    kill.kill ≠ 0 ∧ (∃ x ∈ (flight .load).sects, x ∈ late.lost) ∧ ({ flight .matrix with spot := some (1, 0, 0) } : Flight).spot.isSome = true ∧
    (fly c).flights.find? (fun x => x.id == 3 && x.kind == .closure) = some c ∧
    ({ fly c with iss := c.iss } : State).tractPlace false 0x40 = some (0, 0x40) ∧ ((fly c).core 0).survey = .none := by
  decide +kernel

/-- The set of quadrant 0 waits on the line of its instruction, which device 1 maps; at 0x2000000 it maps nothing. -/
theorem witness_FetchWindowAndRunAhead :
    let s : State := { mst regs with quads := [(0, { Quad.init with fetch := some (0, 3, 0x1000) })] }
    (s.quad 0).fetch = some (0, 3, 0x1000) ∧ s.fetch 0 1 0x1000 = .miss 0x1000 1 ∧
    (s.translate 0 1 0x1000 false true).2 = .ok 0x2001000 false ∧ (s.translate 0 1 0x1000 false true).1.badW = [] ∧
    (s.translate 0 1 0x2000000 false true).2 = .fault 0x10 ∧ s.tlb? 0 1 0x1000 = none ∧ (s.walk 1 0x1000).isOk = true ∧
    (s.walk 1 0x2000000).isOk = false := by
  decide +kernel

/-- One warp enters an empty position; of five warps in slots 0 to 4, all in the window since clock 0, slot 0 leaves for slot 4; one
exchange is due. -/
theorem witness_FetchWindowAndRunAhead_window :
    let s : State := mst regs
    let q (win : List Pos) : Quad := { Quad.init with clock := 5000, win := win }
    let five : State := { s with
      warps := (List.range 5).map (fun k => (k, { wp with last := some k })), resident := [0, 1, 2, 3, 4],
      quads := [(0, q [.warp 0, .warp 1, .warp 2, .warp 3])] }
    let due : State := { s with quads := [(0, q [.exch 0 (some 1) 5000, .empty, .empty, .empty])] }
    (s.incoming 0 ≠ [] ∧ .empty ∈ (s.quad 0).win ∧ ∀ p ∈ (s.quad 0).win, p = .empty) ∧
    (five.outgoing 0 = some 0 ∧ (five.incoming 0).head? = some 4 ∧ Pos.empty ∉ (five.quad 0).win ∧
      (∀ p ∈ (five.quad 0).win, ∃ k, k < 4 ∧ p = .warp k) ∧ five.runs = [] ∧ (five.warp 0).allAtBoundary = true) ∧
    (due.quad 0).dueExchange = some (0, some 1) ∧ (s.quad 0).dueExchange = none := by
  decide +kernel

/-- A run-ahead set whose next instruction, a fence or one that seals, stands in the core's cache. -/
def ahead (w0 w1 : Word) (count : Nat) : State :=
  let b : FaultBatch := { cause := 0x10, lanes := 3, rmask := 3, spc := 0x1000, pages := [], ovr := false, runa := true, fseq := none }
  let r : Run := { lanes := 3, pc := 0x1008, since := 1, count := count, fpc := 0x1000, batches := [b], shadow := regs, poison := [(0, 6)] }
  { (mst regs).setBytes 0x2001008 (leBytes 4 w0.toNat ++ leBytes 4 w1.toNat) with
    runs := [(0, r)], cores := [(0, { Core.init with icache := [(2 ^ 50 + 0x20, [0, 0, w0, w1])] })] }

theorem witness_FetchWindowAndRunAhead_ahead :
    let s : State := ahead 0x1C00148A 0x40000000 255
    let e : State := ahead 0x1C001042 0 3
    (s.runs.find? (fun x => x.1 == 0)).isSome = true ∧ s.fetch 0 1 0x1008 = .words [0x1C00148A, 0x40000000] ∧
    decode [0x1C00148A, 0x40000000] = .ok (.fence u .acq .pkg) ∧ s.regsPending 0 3 (Instr.fence u .acq .pkg).shape = false ∧
    (Instr.fence u .acq .pkg).shape.check regs 3 = none ∧ (s.contract 1).breaksAt 5 0x1008 = false ∧
    e.fetch 0 1 0x1008 = .words [0x1C001042, 0] ∧ decode [0x1C001042, 0] = .ok (.ret u) ∧ (Instr.ret u).shape.seals = true ∧
    e.regsPending 0 3 (Instr.ret u).shape = false := by
  decide +kernel

theorem witness_FetchWindowAndRunAhead_sample :
    let q (clock : Nat) : Quad := { Quad.init with clock := clock, sampler := { Sampler.off with mode := 1, vdev := 1, per := 16, start := 10 } }
    let s : State := { mst regs with quads := [(0, { q 27 with win := [.warp 0, .empty, .empty, .empty] })] }
    (s.quad 0).sampler.mode = 1 ∧ 10 + (0 + 1) * 16 < (s.quad 0).clock ∧ s.sampleSlot 0 = some 0 ∧ (q 26).clock ≤ 10 + (0 + 1) * 16 ∧
    ({ s with resident := [] } : State).sampleSlot 0 = none := by
  decide +kernel

/-- A running copy of row 1 of the matrix of slot 3 to scratchpad 0x40, and what is around it. -/
def running (k : JKind) : Job := { someJob with kind := k, state := .running }
def jst (js : List Job) : State := { tst tw with jobs := js }

/-- A queued job that may start, and one behind a job with which it conflicts. -/
theorem witness_EngineJobsRun :
    let s : State := jst [someJob]
    let t : State := jst [running .cpyIn, { someJob with id := 3 }]
    let find (s : State) (id : Nat) (st : JState) : Option Job := s.jobs.find? (fun x => x.id == id && x.tract == 0 && x.state == st)
    find s 2 .queued = some someJob ∧ find s 4 .queued = none ∧
    (∀ x ∈ (s.jobs.filter (fun x => x.tract == 0)).takeWhile (fun x => x.id != 2), someJob.conflicts x = false) ∧
    s.jobBarred someJob = false ∧ (s.core 0).survey = .none ∧ find t 3 .queued = some { someJob with id := 3 } ∧
    (∃ x ∈ (t.jobs.filter (fun x => x.tract == 0)).takeWhile (fun x => x.id != 3), ({ someJob with id := 3 } : Job).conflicts x = true) := by
  decide +kernel

/-- Its first element lies at 0x410, and goes to scratchpad 0x40; row 2 does not exist. -/
theorem witness_EngineJobsRun_access :
    let s : State := jst [running .cpyIn]
    let j : Job := running .cpyIn
    s.jobs.find? (fun x => x.id == 2 && x.tract == 0 && x.state == .running) = some j ∧ s.jobClosed j 0 = false ∧ j.back = [] ∧
    j.next < j.e0 * j.e1 ∧ entFmt j.entry ≠ 1 ∧ s.jobHeldBack j 0 = false ∧ j.coords 0 = some (0, [1, 0, 0, 0]) ∧
    (j.addr (0, [1, 0, 0, 0])).1 = 0x410 ∧ (s.contract 1).watchHit false 0x410 4 = none ∧ (s.contract 1).watchHit true 0x410 4 = none ∧
    (s.translate 0 1 0x410 false false).2 = .ok 0x2000410 false ∧ (s.translate 0 1 0x410 true false).2 = .ok 0x2000410 false ∧
    (s.translate 0 1 0x410 true false).1.held = [] ∧ (s.translate 0 1 0x410 true false).1.badW = [] ∧
    ({ j with cs := [2, 0, 0, 0] } : Job).coords 0 = none ∧ s.badW = [] ∧ s.badSec = [] ∧ s.lost = [] := by
  decide +kernel

/-- Eight half-bytes performed and none subtracted, against the closure at 0x60; and a job at its end. -/
theorem witness_EngineJobsRun_count :
    let j : Job := { running .cpyIn with clo := some (0, 0x60, spad 0x60), moved := 8 }
    let s : State := { jst [j] with mem := (tst tw).mem ++ [(spad 0x66, 2), (spad 0x6A, 0x80)] }
    let e : Job := { running .cpyIn with next := 4 }
    s.jobClosed j 0 = false ∧ j.subbed < j.moved / 2 ∧ s.badW = [] ∧ 2 ^ 48 ≤ s.valueAt (spad 0x60) 8 ∧
    (BitVec.ofNat 64 (s.valueAt (spad 0x68) 8) : Dword).getLsbD 23 = true ∧ e.total ≤ e.next ∧ e.back = [] ∧ e.clo = none ∧
    (jst [e]).jobClosed e e.cloCore = false ∧ j.next < j.total := by
  decide +kernel

/-- An all-reduce of two members, whose peer's 32 bytes land at 0x820; a broadcast, in which this member is not the first. -/
def collJob (st : JState) : Job :=
  { someJob with kind := .coll, state := st, desc := [BitVec.ofNat 64 (2 * 2 ^ 16), 0x800, BitVec.ofNat 64 (9 * 2 ^ 48), 0, 0, 0, 0, 0] }

def castJob : Job :=
  { collJob .queued with desc := [BitVec.ofNat 64 (3 * 2 ^ 28 + 2 * 2 ^ 16 + 2 ^ 8), 0x800, BitVec.ofNat 64 (9 * 2 ^ 16), 0, 0, 0, 0, 0] }

theorem witness_EngineJobsRun_coll :
    let s : State := { jst [collJob .running] with ports := [(3, { Port.init with peer := 9 })] }
    collTakes (collJob .running) 1 (List.replicate 32 1) = true ∧ collLands (collJob .running) 1 = (0x820, 32) ∧
    (s.contract 1).watchHit true 0x820 32 = none ∧
    (match (State.jobWriteAll 33 s (collJob .running) 0x820 (List.replicate 32 1)).2 with
      | .ok _ => true
      | _ => false) = true ∧
    (match (s.collStart castJob).2 with
      | .ok _ => true
      | _ => false) = true := by
  decide +kernel

/-- A queued gather. -/
theorem witness_EngineJobsRun_gath :
    let j : Job := { someJob with kind := .gath, ientry := ent4, ik := spad 0x100 }
    let s : State := jst [j]
    s.jobs.find? (fun x => x.id == 2 && x.tract == 0 && x.state == .queued) = some j ∧ s.jobBarred j = false ∧ s.badW = [] ∧ s.lost = [] ∧
    s.badSec = [] ∧ j.ik = spad 0x100 := by
  decide +kernel

/-! ### Witnesses: launches -/

/-- A launch record of device 1: launch 6, image 0x8000, budget 5,000,000, completions at 0x40000. -/
def lrec : List Dword := [BitVec.ofNat 64 (6 * 2 ^ 32 + 2 ^ 16), 0x8000, 5000000, 0x40000, BitVec.ofNat 64 (4 * 2 ^ 32), 0, 0, 0]

/-- Device 1 with queue 0 at 0x300000. -/
def dev : Contract := { Contract.init with
  vdev := 1, v := true, rights := true, dbg := true, ptroot := 0x80000, ttbase := 0x200000, qtab := 0x300000, qres := 4, lseql := 5 }
def lst : State := { mst regs with contracts := [(1, dev)] }

theorem witness_LaunchesRunParcels :
    lrec.length = 8 ∧ (lst.contract 1).rights = true ∧ (lst.contract 1).stop = false ∧ (lst.contract 1).v = true ∧ recVdev lrec = 1 ∧
    (lrec.getD 3 0).toNat % 64 = 0 ∧ recordOk lrec = true ∧ recordOk (lrec.take 7 ++ [1]) = false ∧ lst.transfer = false ∧
    (hi32 (lrec.getD 0 0) - (lst.contract 1).lseql).toNat = 1 ∧ (2 : Nat) ^ 31 < ((5 : Word) - 6).toNat ∧
    (({ lst with freeCtr := lst.freeCtr + 1 } : State).feStore 8 1 (lrec.getD 3 0 + 32) (dwordBytes [1, 1, 1, 0])).2.isOk = true := by
  decide +kernel

theorem witness_LaunchesRunParcels_kick :
    (lst.contract 1).v = true ∧ lst.qLog 1 31 ≤ 12 ∧ (lst.contract 1).rights = true ∧ (lst.contract 1).stop = false ∧
    ({ lst with mem := [(0x3001FD, 208)] } : State).qLog 1 31 = 13 ∧
    ({ lst with contracts := [(1, { dev with rights := false })] } : State).qLog 1 0 ≤ 12 := by
  decide +kernel

/-- A frame of one record, and one that is short. -/
theorem witness_LaunchesRunParcels_frame :
    let h : Dword := BitVec.ofNat 64 (7 * 2 ^ 48 + 2 ^ 40 + 2 ^ 32)
    field h 47 40 = 1 ∧ field h 39 32 = 1 ∧ field h 31 0 = 0 ∧ (h :: lrec).length = 1 + 8 * field h 39 32 ∧
    (h :: lrec.take 7).length ≠ 1 + 8 * field h 39 32 := by
  decide +kernel

def inState (p : PState) : State :=
  { lst with warps := [], resident := [], launches := [{ launch with parcels := [{ parcel with state := p, place := [] }] }] }

theorem witness_LaunchesRunParcels_place :
    let s : State := inState .ready
    let p : Parcel := { parcel with state := .ready, place := [] }
    s.poolHead 1 = some ({ launch with parcels := [p] }, p) ∧ s.parcel? 1 5 2 = some p ∧ s.fit 1 p true = some [(0, [1])] ∧ p.boxes = [] ∧
    (s.contract 1).rights = true ∧ (s.contract 1).stop = false := by
  decide +kernel

theorem witness_LaunchesRunParcels_done :
    let s : State := { lst with warps := [], resident := [] }
    let late : Launch := { launch with parcels := [{ parcel with wcet := 5, clocks := 6, progress := 9 }] }
    let t : State := { lst with launches := [late], contracts := [(1, { dev with wdog := 9 })] }
    s.launch? 1 5 = some launch ∧ s.parcel? 1 5 2 = some parcel ∧ parcel.state = .running ∧ s.parcelOver 1 5 2 = true ∧
    lst.parcelOver 1 5 2 = false ∧ (t.parcel? 1 5 2).any (fun p => p.state == .running && p.wcet != 0 && decide (p.wcet < p.clocks)) = true ∧
    (t.contract 1).wdog ≠ 0 ∧ (t.parcel? 1 5 2).any (fun p => decide ((t.contract 1).wdog.toNat ≤ p.progress)) = true := by
  decide +kernel


/-- What 64-byte units of a device's pages read as, where a cached leaf maps them and nothing is listed: no byte of the state changes. -/
theorem reads_zero (s : State) (v base : Nat)
    (hit : ∀ va : Dword, va.toNat < 2 ^ 25 → s.translate dieA v va false false = (s, .ok (base + va.toNat) false))
    (meets : ∀ k n, s.meetRead k n = .ok s) (none' : s.held = []) (low : Nat) (empty : ∀ k, low ≤ k → s.byte k = 0) :
    ∀ (f : Nat) (va : Dword) (n : Nat), va.toNat % 64 = 0 → n % 64 = 0 → va.toNat + n ≤ 2 ^ 25 → low ≤ base + va.toNat → n ≤ 64 * f →
      s.feReadUnits f v va n = (s, some (List.replicate n 0)) := by
  have bytes : ∀ n k, low ≤ k → s.bytes k n = List.replicate n 0 := by
    intro n
    induction n with
    | zero => intros; rfl
    | succ n ih => intro k h; rw [State.bytes, empty k h, ih (k + 1) (by omega), List.replicate_succ]
  intro f
  induction f with
  | zero =>
    intro va n _ _ _ _ h
    obtain rfl : n = 0 := by omega
    rfl
  | succ f ih =>
    intro va n al un fits lo hn
    by_cases h0 : n = 0
    · subst h0; rfl
    · have can : canonical va = true := by
        have m : (va.setWidth 57).msb = false := by
          rw [BitVec.msb_eq_false_iff_two_mul_lt, BitVec.toNat_setWidth]; omega
        unfold canonical canon
        rw [beq_iff_eq, BitVec.signExtend_eq_setWidth_of_msb_false m]
        apply BitVec.eq_of_toNat_eq
        simp only [BitVec.toNat_setWidth]; omega
      have m : min n (64 - va.toNat % 64) = 64 := by omega
      have step : (va + BitVec.ofNat 64 64).toNat = va.toNat + 64 := by
        rw [BitVec.toNat_add, BitVec.toNat_ofNat]; omega
      rw [State.feReadUnits]
      simp only [h0, ↓reduceIte, can, Bool.not_true, Bool.false_eq_true, State.feRead, hit va (by omega), meets, State.partyHeld, none', List.filter_nil,
        List.isEmpty_nil, bytes _ _ lo, m]
      rw [ih _ _ (by omega) (by omega) (by omega) (by omega) (by omega)]
      simp only [List.replicate_append_replicate]
      congr 3; omega

theorem meets_clean (s : State) (h : s.lost = [] ∧ s.badSec = [] ∧ s.badW = []) (k n : Nat) : s.meetRead k n = .ok s := by
  cases s
  obtain ⟨rfl, rfl, rfl⟩ := h
  simp [State.meetRead, State.meetWords, State.meetAll]

/-- The reads of an image of one parcel. -/
theorem readImage_of {s : State} {v : Nat} {at' : Dword} {h gs : List Dword} {p : Parcel} {ws : List WRec} {tt : List Byte}
    (head : s.feDwords v at' 8 = (s, some h)) (good : hdrOk h = true) (fresh : hdrResume h = false) (one : hdrNparc h = 1)
    (parcel : s.readParcel v h 0 = (s, some p))
    (groups : s.feDwords v (hdrGtab h) 256 = (s, some gs)) (table : s.feReadAll v (hdrTtab h) 262144 = (s, some tt))
    (warps : s.checkWarps v (hdrWtab h) p = (s, some ws))
    (all : s.checkTable v (hdrWtab h) (hdrNwarp h) = (s, some ())) :
    s.readImage v at' = (s, some { hdr := h, ext := [], tt := tt, groups := gs, parcels := [(p, ws)] }) := by
  simp [State.readImage, head, good, fresh, one, parcel, groups, table, State.readEach, warps, all]

/-- An image at 0x8000 of one parcel of one warp of one thread, all else zeros, behind a cached leaf of the pages. -/
def image : List Dword := [0x10001, 0x8100, 0x8300, 0x9000, 0x20000, 0x40000, 0, 0]
def prec : List Dword := [BitVec.ofNat 64 (2 ^ 48), 1000, 0, BitVec.ofNat 64 (4096 * 2 ^ 32)] ++ List.replicate 40 0
def wrec : List Dword := [BitVec.ofNat 64 (2 ^ 32), 0, 0, 0, 0, 0xA000, 0xB000, 0]
def leaf0 : Tlb := { die := dieA, vdev := 1, page := 0, big := true, pte := 0xF400000002000000 }
/-- With the contract c, the parcel record p and the group word g. -/
def imstOf (c : Contract) (p : List Dword) (g : Dword) : State :=
  let s : State := { lst with
    mem := [], launches := [], warps := [], resident := [], tlbs := [leaf0], contracts := [(1, c)] }
  (((s.setBytes 0x2008000 (dwordBytes image)).setBytes 0x2008100 (dwordBytes p)).setBytes 0x2008300 (dwordBytes wrec)).setBytes
    0x2009000 (dwordBytes [g])
def imreadOf (p : List Dword) (g : Dword) : ImgRead :=
  { hdr := image, ext := [], tt := List.replicate 262144 0, groups := g :: List.replicate 255 0,
    parcels := [(parcelOf 0 p, [wrecOf 0 wrec])] }
def imst : State := imstOf dev prec 0
def imread : ImgRead := imreadOf prec 0

/-- What a state is for its image to be read from the one cached leaf. -/
abbrev Quiet (s : State) : Prop :=
  s.tlbs = [leaf0] ∧ (s.contract 1).windows = [] ∧ s.inval = [] ∧ (s.lost = [] ∧ s.badSec = [] ∧ s.badW = []) ∧ s.held = [] ∧
  ∀ e ∈ s.mem, e.1 < 0x2020000

theorem table_of (s : State) (h : Quiet s) : s.feReadAll 1 0x20000 262144 = (s, some (List.replicate 262144 0)) := by
  obtain ⟨tl, wi, inv, clean, held, low⟩ := h
  unfold State.feReadAll
  apply reads_zero s 1 0x2000000 (low := 0x2020000)
  rotate_left 4
  · decide
  · decide
  · decide
  · decide
  · decide
  · intro va h
    have f : field va 56 25 = 0 := by unfold field bits; omega
    have o : field va 24 0 = va.toNat := by unfold field bits; omega
    have w : (s.contract 1).window? va = none := by
      rw [Contract.window?, wi, List.find?_eq_none]
      intro j _
      simp [NMap.get]
    have t : s.tlb? dieA 1 va = some leaf0 := by simp [State.tlb?, tl, f, leaf0]
    have p : pteAddr leaf0.pte = 0x2000000 ∧ pteTier leaf0.pte = 0 ∧ leaf0.big = true := by decide +kernel
    simp [State.translate, w, State.leaf, State.invalAt, inv, t, o, p, tierKey]
  · exact meets_clean _ clean
  · exact held
  · intro k h
    have g : ∀ m : List Host.Cell, (∀ e ∈ m, e.1 < 0x2020000) → NMap.get byte0 m k = 0 := by
      intro m hm
      induction m with
      | nil => rfl
      | cons e m ih =>
        have := hm e (by simp)
        rw [NMap.get, if_neg (by omega), ih fun x hx => hm x (by simp [hx])]
    exact g _ low

/-- What else is read of the image. -/
abbrev Holds (s : State) (p : List Dword) (g : Dword) : Prop :=
  s.feDwords 1 (lrec.getD 1 0) 8 = (s, some image) ∧ s.readParcel 1 image 0 = (s, some (parcelOf 0 p)) ∧
  s.feDwords 1 (hdrGtab image) 256 = (s, some (g :: List.replicate 255 0)) ∧
  s.checkWarps 1 (hdrWtab image) (parcelOf 0 p) = (s, some [wrecOf 0 wrec]) ∧
  s.checkTable 1 (hdrWtab image) (hdrNwarp image) = (s, some ())

theorem read_of {s : State} {p : List Dword} {g : Dword} (q : Quiet s) (h : Holds s p g) :
    s.readImage 1 (lrec.getD 1 0) = (s, some (imreadOf p g)) := by
  obtain ⟨head, parcel, groups, warps, all⟩ := h
  exact readImage_of head (by decide +kernel) (by decide +kernel) (by decide +kernel) parcel groups
    ((by decide +kernel : hdrTtab image = 0x20000) ▸ table_of s q) warps all

theorem at_zeros (n k m : Nat) : at' (List.replicate n 0) k m = 0 := by
  have leNat_zeros : ∀ n, leNat (List.replicate n 0) = 0 := by
    intro n
    induction n with
    | zero => rfl
    | succ n ih => rw [List.replicate_succ, leNat, ih]; rfl
  rw [at', List.drop_replicate, List.take_replicate, leNat_zeros]

theorem imread_checks : imst.imageOk 1 imread = true ∧ imst.inContract (imst.contract 1) imread = true := by
  refine ⟨?_, by decide +kernel⟩
  have table : (List.range 4096).all (fun i => at' (imreadOf prec 0).tt (64 * i) 3 % 2 ^ 23 == 0) = true := by
    rw [List.all_eq_true]
    intro i _
    show (at' (List.replicate 262144 0) (64 * i) 3 % 2 ^ 23 == 0) = true
    rw [at_zeros]
    rfl
  rw [State.imageOk, imread, table, Bool.and_true, Bool.and_eq_true, Bool.and_eq_true]
  exact ⟨⟨by decide +kernel, by decide +kernel⟩, by decide⟩

/-- Its estimate, at 850 MHz: the parcel's clocks, and the scan and pre-emption of its core. -/
theorem imread_estimate :
    imst.pathEst (imst.contract 1) imread.tt (imread.parcels.map (·.1)) = some 1000589 ∧ imst.backlog 1 = 0 := by decide +kernel

/-- A record whose image reads as that is accepted within its budget. -/
theorem witness_LaunchesRunParcels_accept :
    recordOk lrec = true ∧ imst.transfer = false ∧ imst.readImage 1 (lrec.getD 1 0) = (imst, some imread) ∧
    imst.imageOk 1 imread = true ∧ imst.inContract (imst.contract 1) imread = true ∧
    ∃ e, imst.pathEst (imst.contract 1) imread.tt (imread.parcels.map (·.1)) = some e ∧
      imst.backlog 1 + e ≤ field (lrec.getD 2 0) 47 0 := by
  refine ⟨by decide +kernel, by decide +kernel, read_of (by decide +kernel) (by decide +kernel), imread_checks.1, imread_checks.2, _,
    imread_estimate.1, ?_⟩
  rw [imread_estimate.2]
  decide +kernel

/-- The same with a reserved bit in the word of group 0, with a contract of no quadrants, with a parcel without a bound, and with a budget
below the estimate; an image page of zeros. -/
theorem witness_LaunchesRunParcels_refuse :
    (imstOf dev prec 0x100000).readImage 1 (lrec.getD 1 0) = (imstOf dev prec 0x100000, some (imreadOf prec 0x100000)) ∧
    (imstOf dev prec 0x100000).imageOk 1 (imreadOf prec 0x100000) = false ∧
    (imstOf { dev with qres := 0 } prec 0).readImage 1 (lrec.getD 1 0) = (imstOf { dev with qres := 0 } prec 0, some (imreadOf prec 0)) ∧
    (imstOf { dev with qres := 0 } prec 0).inContract { dev with qres := 0 } (imreadOf prec 0) = false ∧
    (imstOf dev (prec.set 1 0) 0).readImage 1 (lrec.getD 1 0) = (imstOf dev (prec.set 1 0) 0, some (imreadOf (prec.set 1 0) 0)) ∧
    (imstOf dev (prec.set 1 0) 0).pathEst dev (imreadOf (prec.set 1 0) 0).tt [parcelOf 0 (prec.set 1 0)] = none ∧
    imst.backlog 1 + 1000589 > field (5 : Dword) 47 0 ∧ recordOk (lrec.set 2 5) = true ∧ (lst.readImage 1 (lrec.getD 1 0)).2 = none := by
  refine ⟨read_of (by decide +kernel) (by decide +kernel), ?_, read_of (by decide +kernel) (by decide +kernel), by decide +kernel,
    read_of (by decide +kernel) (by decide +kernel), by decide +kernel, by decide +kernel, by decide +kernel, by decide +kernel⟩
  have groups : (List.range 256).all (fun k => groupOk (hdrResume (imreadOf prec 0x100000).hdr) (imreadOf prec 0x100000).parcels k
    ((imreadOf prec 0x100000).groups.getD k 0)) = false := by decide +kernel
  rw [State.imageOk, groups]
  simp

/-! ### Witnesses: pre-emption, memory, tenants, debugging, the fabric, the host -/

/-- Device 1 in a slice, and between its slices. -/
def slc : Contract := { dev with slice := 100, pbud := 50, phndl := 0x5000 }
def sst (c : Contract) : State := { mst regs with contracts := [(1, c)] }
/-- One warp saved, and none in a slot. -/
def vst (c : Contract) (w : Warp) : State :=
  { sst c with warps := [], resident := [], saved := [{ gw := 0, warp := w }] }

theorem witness_PreemptionSavesAndResumes :
    let s : State := sst slc
    let z : State := vst { slc with rights := false } regs
    (s.contract 1).v = true ∧ (s.contract 1).rights = true ∧ (s.contract 1).slice ≠ 0 ∧ (lst.contract 1).slice = 0 ∧
    (z.contract 1).v = true ∧ (z.contract 1).rights = false ∧ (z.contract 1).stop = false ∧ z.leaving 1 = false ∧
    z.saved = [{ gw := 0, warp := regs }] ∧ regs.vdev = 1 ∧ regs.halts = [] ∧ z.launch? 1 regs.lseq = some launch ∧
    launch.replay = false ∧ (z.contract 1).qtab.toNat + 512 ≤ 2 ^ 48 ∧
    (∀ n, n < 32 → (z.contract 1).pending.getLsbD n = false ∧ z.qHead 1 n = z.qTail 1 n) ∧ z.owns 1 0 = true ∧
    (z.core 0).survey = .none ∧ (z.core 0).service = true ∧ z.parcel? 1 regs.lseq regs.pseq = some parcel ∧ parcel.imgFull = [] ∧
    (parcel.imgScr.map (·.1)).Nodup ∧ z.warpsOf 1 regs.lseq regs.pseq = [] ∧ z.extentOf parcel 0 = some (spad 0, 4096) := by
  decide +kernel

/-- A request on its quadrant, whose budget has ended, holds the warp at its boundary. -/
def heldState (c : Contract) (w : Warp) : State :=
  { sst c with
    warps := [(0, w)], quads := [(0, { Quad.init with clock := 100, req := some { kind := .slice, vdev := 1, ends := 90 } })],
    cores := [(0, { Core.init with own0 := 1, own1 := 1, own2 := 1, own3 := 1, icache := [(2 ^ 50 + 0x20, [0x1C0018C2, 0, 0, 0])] })] }

theorem witness_PreemptionSavesAndResumes_held :
    let s : State := heldState slc regs
    let r : State := heldState { slc with phndl := 0 } { regs with inPre := true }
    0 ∈ s.resident ∧ s.asked 0 = true ∧ s.fullyHeld 0 = true ∧ s.resultsOut 0 (s.warp 0).live = false ∧
    s.runs.find? (fun r => r.1 == 0) = none ∧ (s.warp 0).gangGrps = [] ∧ (s.warp 0).wide = false ∧ (s.warp 0).halts = [] ∧
    (s.contract (s.warp 0).vdev).phndl ≠ 0 ∧ (r.contract 1).phndl = 0 ∧
    (∃ x, (s.quad (quadOfWarp 0)).req = some x ∧ x.vdev = (s.warp 0).vdev ∧ x.ends ≤ (s.quad (quadOfWarp 0)).clock) ∧
    s.resultsOut 0 ((s.warp 0).live &&& ~~~ (s.warp 0).offBoundary) = false ∧ (r.warp 0).inPre = true ∧ r.asked 0 = false := by
  decide +kernel

/-- Die 0's first survey is due on core 0, in service or not; a core drains, and a parcel that it ran last is done. -/
theorem witness_PreemptionSavesAndResumes_survey :
    let core (x : Core) : Core := { x with own0 := 1, own1 := 1, own2 := 1, own3 := 1 }
    let s : State := { lst with pclk := 5000000 }
    let o : State := { s with cores := [(0, core { Core.init with service := false })] }
    let p : Parcel := { parcel with state := .done, ranOn := [(0, 0)], place := [], quadsAt := [] }
    let d (xs : List Launch) : State := { lst with
      launches := xs, warps := [], resident := [], contracts := [(1, { dev with rights := false })],
      cores := [(0, core { Core.init with survey := .draining, begun := 1 })] }
    let y : Launch := { launch with parcels := [p] }
    NMap.get 0 s.rotate 0 = 0 ∧ 5000000 ≤ s.pclk ∧ (s.core 0).survey = .none ∧ (s.core 0).service = true ∧ (o.core 0).service = false ∧
    ((d []).core 0).survey = .draining ∧ (d []).drained 0 = true ∧ (d []).launches = [] ∧ (d [y]).drained 0 = true ∧
    (d [y]).launches = [y] ∧ p.ranOn = [(0, 0)] ∧ (d [y]).saved = [] ∧ ((d [y]).contract y.vdev).rights = false := by
  decide +kernel

/-- Record 3 of device 1, a page that is not present, on which both threads of warp 0 are parked. -/
def pst (handler : Dword) : State :=
  let p : Thread := { th with stat := .parked 3 false }
  { lst with
    warps := [(0, { regs with threads := [(0, p), (1, p)], handler := handler })],
    larkarQ := [(1, [BitVec.ofNat 64 (3 * 2 ^ 32 + 0x10 * 2 ^ 24), 0, 0, 0x1000, 0, 0, 0, 0])] }

theorem witness_MemoryTiersChange :
    let s : State := pst 0x4000
    let r : State := pst 0
    let rec' : List Dword := [BitVec.ofNat 64 (3 * 2 ^ 32 + 0x10 * 2 ^ 24), 0, 0, 0x1000, 0, 0, 0, 0]
    recFseq rec' = 3 ∧ recCause rec' = 0x10 ∧ s.larkarQ = [(1, rec')] ∧ s.held = [] ∧ s.leafSlot 1 0x1000 = some ((0x100000 : Nat), true) ∧
    s.serviceWaits 1 [] = false ∧ s.parkedWarps 1 3 = [0] ∧ s.jobs = [] ∧ s.parcel? 1 (s.warp 0).lseq (s.warp 0).pseq = some parcel ∧
    (s.warp 0).enters ((s.warp 0).parkedOn 3) = true ∧ (r.warp 0).enters ((r.warp 0).parkedOn 3) = false ∧
    hasLane (s.warp 0).live 1 = true ∧ ((s.warp 0).thread 1).stat = .parked 3 false ∧ lst.larkarQ = [] := by
  decide +kernel

/-- A leaf of 32 MiB at the frame 0x4000000 of the first tier: clean, and waiting for its scrub. -/
theorem witness_MemoryTiersChange_leaf :
    let s : State := pst 0x4000
    let f : Frame := { tier := 0, addr := 0x4000000, big := true }
    let z : State := { s with scrub := [f] }
    let e : Dword := 0xF400000004000000
    s.serviceWaits 1 [(0x1000, e)] = false ∧ s.newFrame 1 0x1000 e = some f ∧ s.leafWaits 1 0x1000 (some e) = false ∧
    z.serviceWaits 1 [(0x1000, e)] = true ∧ z.leafWaits 1 0x1000 (some e) = true := by
  decide +kernel

/-- A page being invalidated after its move to the frame 0x4000000; a page in migration, free to copy or kept waiting. -/
theorem witness_MemoryTiersChange_pages :
    let i : Inval := { vdev := 1, page := pageOf 0x1000, big := true, old := some (0xFC00000004000000, true), cause := 0, table := none }
    let s : State := { lst with inval := [i] }
    let m : State := { lst with mem := [(0x80002, 0x10), (0x80007, 0x80), (0x100003, 0x02), (0x100007, 0xFC)] }
    s.inval.find? (fun i => i.vdev == 1 && i.page == pageOf 0x1000) = some i ∧ lst.inval = [] ∧ lst.invalAt 1 0x1000 = none ∧ s.held = [] ∧
    lst.leafSlot 1 0x1000 = some ((0x100000 : Nat), true) ∧
    (match s.walk 1 (pageOf 0x1000) with
      | .ok (e, c, _) => pteMig 0xFC00000004000000 && !(pteMig e) && leafFrame 0xFC00000004000000 true != leafFrame e c
      | .error _ => false) = true ∧
    (match lst.walk 1 0x1000 with
      | .ok (e, _, _) => !(pteMig e)
      | .error _ => false) = true ∧ lst.copyWaits 1 0x1000 0 0x4000000 = false ∧
    (match m.walk 1 0x1000 with
      | .ok (e, _, _) => pteMig e
      | .error _ => false) = true ∧ Memory.wf m.mem = true ∧ m.lost = [] ∧ m.badSec = [] ∧ m.badW = [] ∧
    m.copyWaits 1 0x1000 0 0x4000000 = false ∧ ({ m with inval := [i] } : State).copyWaits 1 0x1000 0 0x4000000 = true ∧
    ({ m with inval := [i] } : State).invalAt 1 0x1000 ≠ none := by
  decide +kernel

/-- A freed frame of 64 KB; bad words of one parity group. -/
theorem witness_MemoryTiersChange_frames :
    let f : Frame := { tier := 2, addr := 0x10000, big := false }
    let b : State := { lst with badW := [40] }
    ({ lst with scrub := [f] } : State).scrubHeads.find? (fun x => x.tier == 2 && x.addr == 0x10000) = some f ∧
    lst.scrubHeads.find? (fun x => x.tier == 2 && x.addr == 0x10000) = none ∧
    (b.badW.filter (fun w => b.parityGroup w == b.parityGroup 40)).length = 1 := by
  decide +kernel

/-- A tier of two units; its states while unit 1 is replaced. -/
def tier2 (st : PlatSt) : Tier :=
  { st := st, phase := 3, limit := 2, units := 3, plat := [0, 1, 0, 1], platN := if st = .idle then [] else [0, 0, 0, 0],
    sizes := [(0, 1024), (1, 512)], failing := if st = .idle then none else some 1, queued := [], swaths := 0, doneSw := [], inFlight := [],
    nextRead := 0, stage := [] }

theorem witness_MemoryTiersChange_replat :
    let s (x : Tier) : State := { lst with cxl := x }
    let m : Tier := { tier2 .moving with swaths := 2, inFlight := [1], nextRead := 1 }
    let l : Tier := { tier2 .moving with swaths := 1, inFlight := [0] }
    [0].Pairwise (· < ·) ∧ (∀ u, u < 3 → (u ∈ [0] ↔ u ∈ (tier2 .idle).plat ∧ u ≠ 1)) ∧ ((s (tier2 .idle)).tier true).st = .idle ∧
    1 ∈ ((s (tier2 .idle)).tier true).plat ∧ 2 ∉ (tier2 .idle).plat ∧ (tier2 .evacuating).st = .evacuating ∧ (tier2 .evacuating).platN ≠ [] ∧
    (tier2 .evacuating).limit ≠ 0 ∧ (tier2 .evacuating).queued = [] ∧ m.st = .moving ∧ m.nextRead ≠ 0 ∧ (∀ y ∈ m.inFlight, y < m.nextRead + 7) ∧
    (s m).stagingArea 0 = some 0 ∧ 1 ∈ m.inFlight ∧
    (∃ y, y < m.swaths ∧ y ∉ m.doneSw ∧ y ≠ 1) ∧ l.st = .moving ∧ 0 ∈ l.inFlight ∧ (∀ y, y < l.swaths → y ∈ l.doneSw ∨ y = 0) ∧
    (s m).held = [] := by
  decide +kernel

/-- A tier that is about to move with nothing to move; a near tier that has no area for a swath. -/
theorem witness_MemoryTiersChange_empty :
    let full : List Frame := (List.range 52).map (fun i => { tier := 1, addr := i * 33554432, big := true })
    let z : Tier := { tier2 .evacuating with limit := 0 }
    let y : Tier := { z with platN := [] }
    ({ lst with used := full } : State).stagingArea 0 = none ∧ z.st = .evacuating ∧ z.platN ≠ [] ∧ z.limit = 0 ∧ z.queued = [] ∧
    y.st = .evacuating ∧ y.platN = [] ∧ y.queued = [] := by
  decide +kernel

/-- A lone unit has no survivor. -/
theorem witness_MemoryTiersChange_lone :
    let one : Tier := { tier2 .idle with plat := [1, 1], sizes := [(1, 512)] }
    ([] : List Nat).Pairwise (· < ·) ∧ (∀ u, u < 3 → (u ∈ ([] : List Nat) ↔ u ∈ one.plat ∧ u ≠ 1)) ∧ one.st = .idle ∧ 1 ∈ one.plat ∧
    ({ lst with hbm := one } : State).tier false = one := by
  decide +kernel

/-- A contract of device 1 that keeps its limits: with and without `DBG`; the target of a migration. -/
def newC (dbg : Nat) : List Dword :=
  [BitVec.ofNat 64 (2 ^ 48 + 4 * 2 ^ 32 + 240 * 2 ^ 24 + 4 * dbg + 1), 0x80000, 0x200000, 0, 0, 0, 0, 0x300000, BitVec.ofNat 64 (2 ^ 32), 0]

theorem witness_TenantsConfigured :
    (newC 0).length = 10 ∧ field ((newC 0).getD 0 0) 63 48 = 1 ∧ field ((newC 0).getD 0 0) 31 24 = 240 ∧
    ((newC 1).getD 0 0).getLsbD 2 = true ∧ ((newC 0).getD 0 0).getLsbD 2 = false ∧ (lst.contract 1).dbg = true ∧ lst.saved = [] ∧
    lst.savedJobs = [] ∧ (lst.contract 1).rights = true ∧ ((lst.contracts.map (·.2)).filter (fun x => x.v && x.vdev != 1)) = [] ∧
    hi32 ((newC 0).getD 8 0) ≠ 0 ∧ (State.reset.contract 1).dbg = false ∧ (lst.contract 1).v = true ∧ (lst.contract 1).stop = false ∧
    0 ∈ lst.quadsOf 1 ∧ lst.held = [] ∧
    (match lst.walk 1 0x1000 with
      | .ok _ => true
      | .error _ => false) = true := by
  decide +kernel

/-- A device without rotation, which begins its slice with the contract; the same from reset. -/
theorem witness_TenantsConfigured_begins :
    let d : List Dword := (newC 0).set 8 0
    let s : State := { lst with contracts := [(1, { dev with rights := false, dbg := false })] }
    d.length = 10 ∧ (d.getD 0 0).getLsbD 0 = true ∧ hi32 (d.getD 8 0) = 0 ∧ (s.contract 1).stop = false ∧ (s.contract 1).rights = false ∧
    (s.contract 1).dbg = false ∧ s.leaving 1 = false := by
  decide +kernel

/-- Core 0 divided anew in two, for devices 1 and 2; the same while its warp stands, and while a queued job writes its extent. -/
theorem witness_TenantsConfigured_partition :
    let own : Dword := 0x0002000200010001
    let owner (k : Nat) : BitVec 16 := BitVec.ofNat 16 (own.toNat / 2 ^ (16 * k))
    let s : State := { lst with warps := [], resident := [] }
    (∀ j, j < 4 → ∀ k, k < 4 → bankSet 1 j = bankSet 1 k → owner j = owner k) ∧ s.resident = [] ∧ s.jobs = [] ∧ s.saved = [] ∧
    s.savedJobs = [] ∧ s.badW = [] ∧
    (s.core 0).div ≤ 4 ∧ bankSet 0 0 = bankSet 0 3 ∧ owner 0 ≠ owner 3 ∧ 0 ∈ lst.resident ∧ (s.core 0).div ≠ 1 ∧
    (someJob.box = none ∧ someJob.gw / 64 = 0 ∧ (1 ≠ (s.core 0).div ∨ owner 0 ≠ (s.core 0).own0)) := by
  decide +kernel

theorem witness_DebuggerOrders :
    let w : Warp := { regs with halts := [5], groups := 0x100000005 }
    let z : State := vst dev w
    let y : State := vst dev { w with halts := [5, 6] }
    let s : State := { pst 0 with warps := [(0, { regs with threads := [(0, { th with stat := .parked 3 true })] })] }
    (lst.contract 1).v = true ∧ (lst.contract 1).dbg = true ∧ lst.saved = [] ∧ lst.savedJobs = [] ∧ w.vdev = 1 ∧ w.inGroup 5 = true ∧
    z.saved = [{ gw := 0, warp := w }] ∧ z.savedJobs = [] ∧ z.launch? 1 5 = some launch ∧ launch.replay = false ∧
    z.owns 1 (quadOfWarp 0) = true ∧
    (z.contract 1).rights = true ∧ (z.core 0).survey = .none ∧ (z.core 0).service = true ∧ (∀ h ∈ w.halts, h = 5) ∧
    (∃ h ∈ (y.saved.map (fun x => x.warp.halts)).flatten, h ≠ 5) ∧ w.halts ≠ [] ∧ 63 < w.hc ∧ canonical 0x1000 = true ∧
    areaOk (List.replicate 128 0) = true ∧ 0 ∈ s.resident ∧ (s.warp 0).vdev = 1 ∧ hasLane (s.warp 0).live 0 = true ∧
    ((s.warp 0).thread 0).stat = .parked 3 true ∧ ({ dev with dbg := false } : Contract).dbg = false := by
  decide +kernel

/-- A halted saved warp whose parcel holds an extent, a tag and an accumulator on its core: the image has the extent's named part
only, or is to take all of it whole. -/
theorem witness_DebuggerOrders_image :
    let p : Parcel := { parcel with place := [(0, 0)] }
    let whole : Parcel := { p with imgFull := [0] }
    let z (x : Parcel) : State := { vst dev { regs with halts := [5] } with launches := [{ launch with parcels := [x] }] }
    (z p).parcel? 1 5 2 = some p ∧ (z p).coreSaved 1 5 2 0 = true ∧
    (match (z p).extentOf p 0 with
      | some (_, n) => decide (0 < n)
      | none => false) = true ∧ (((z p).tagsOf p 0)[0]?).isSome = true ∧ p.quadsAt.find? (fun e => e.1 == 0) = some (0, 0) ∧ 0 ∈ p.accQuads ∧
    0 ∉ p.imgExt ∧ p.imgFull = [] ∧ (z whole).parcel? 1 5 2 = some whole ∧ (z whole).coreSaved 1 5 2 0 = true ∧ 0 ∈ whole.imgFull := by
  decide +kernel

theorem witness_FabricAndHostAccess :
    let s : State := { lst with ports := [(4, { Port.init with seq := 7, peer := 9 }), (5, { Port.init with ok := false })] }
    let read (die : Nat) : State × TRes := s.translate die 1 0x1040 false false
    let write (die : Nat) : State × TRes := s.translate die 1 0x1040 true false
    (NMap.get Port.init s.ports 4).ok = true ∧ (NMap.get Port.init s.ports 4).seq = 7 ∧ (NMap.get Port.init s.ports 5).ok = false ∧
    (∀ die ∈ [8, 9], (read die).2 = .ok 0x2001040 false ∧ (read die).1.clear ∧ (write die).2 = .ok 0x2001040 false ∧
      (write die).1.clear ∧ (s.translate die 1 0x2000000 false false).2 = .fault 0x10 ∧
      (s.translate die 1 0x2000000 true false).2 = .fault 0x10) ∧
    s.hostWaits = false ∧ s.pcieUp = true ∧ (0x1040 : Dword).toNat % 64 + 64 ≤ 64 ∧ (0x1040 : Dword).toNat % 128 + 64 ≤ 128 ∧
    s.remoteWaits 9 1 .load 0x1040 = false ∧ s.remoteWaits 9 1 .store 0x1040 = false ∧
    s.remoteWaits 9 1 (.atom .add .w32) 0x1040 = false ∧ s.peerPort 7 = none ∧
    ({ s with lost := [0x2001040 / 32] } : State).lost = [0x100082] ∧ 0x2001040 < 3 * 2 ^ 48 := by
  unfold State.clear; decide +kernel

/-- A part that Larkar runs, whose owner is installed, at the lowest limit. -/
theorem witness_BootOwnershipAndPower :
    let s : State := { lst with booted := true, spdmVersion := true, spdmCaps := true, spdmAlgs := true, owned := true, pwrlim := 1300 }
    s.booted = true ∧ State.reset.booted = false ∧ s.owned = true ∧ State.reset.owned = false ∧ (1200 : Nat) < s.pwrlim ∧
    (∃ x ∈ s.launches, (!(x.doneW || x.endedW)) = true) ∧ (∀ x ∈ State.reset.launches, x.doneW = true ∨ x.endedW = true) ∧
    ({ s with stopped := true, pcieUp := false } : State).sched = [] := by
  decide +kernel

/-! ### Witnesses: further cases -/

/-- In the pre-emption handler the other thread has ceded, and outside the issuing set. -/
theorem witness_ExitEndsThreads_ceded :
    let w : Warp := { regs with inPre := true, threads := [(0, { th with stat := .ceded }), (1, th)] }
    let s : State := { st w with iss := { (st w).iss with mask := 2 } }
    s.mayIssue (exitShape s u.guard) ∧ s.metKill s.iss.gw (s.on u.guard) = none ∧ s.on u.guard ≠ 0 ∧
    s.iw.live &&& ~~~ s.on u.guard = 1 ∧ s.iw.inPre = true ∧ (s.iw.thread 0).stat = .ceded ∧ hasLane s.iss.mask 0 = false ∧
    s.iss.gw ∈ s.resident := by
  unfold State.mayIssue State.operandsOk; decide +kernel

/-- Without a guard the lowest lane of the set loads for all of it. -/
theorem witness_DeviceLoadsReadMemory_uniform :
    let s : State := mst memw
    s.operandsOk { guard := u.guard, srcs := [(.uniform ((1 : BitVec 4).setWidth 6 * 4), 4), (.hold 2, 1)], dsts := (wd 8).regs 1,
                   strand := false, seals := false } ∧
    hasLane (s.on u.guard) (lowest s.iss.mask) = true ∧ laneBit (lowest s.iss.mask) = 1 ∧
    ∃ t, s.Reaches 1 (s.iw.bufRec 1) (fun l => (memw.getHold l 2).toNat) 4 false t (fun l => some (0x200040C + 8 * l)) := by
  refine ⟨by unfold State.operandsOk; decide +kernel, by decide +kernel, by decide +kernel, _, reaches_of ?_ ?_ ?_ ?_ ?_ ?_⟩
  all_goals try unfold State.clear
  all_goals try unfold State.unsampled
  all_goals decide +kernel

/-- A uniform result under a guard that the lowest thread fails; a slot beyond the range in every lane. -/
theorem witness_TagTableOperations_guard :
    let s : State := mst memw
    let q : State := mst { memw with pred := [(1, 1)] }
    (hd 6).lanes s.iss.mask (s.on u.guard) ≠ 0 ∧ q.on v.guard ≠ 0 ∧ (wd 6).lanes q.iss.mask (q.on v.guard) = 0 ∧
    q.operandsOk { guard := v.guard, srcs := [(.hold 2, 1)], dsts := (wd 6).regs 1, strand := false, seals := false } ∧
    (∀ l, l < 32 → (hasLane 3 l = true ↔ hasLane (s.on u.guard) l = true ∧ s.tagOut ((Opd.imm 16).val memw s.iss 0 l .i32).toNat = true)) := by
  unfold State.operandsOk; decide +kernel

/-- Both threads have been released at the breakpoint instruction; a whole warp-wide strand traps. -/
theorem witness_TrapsAndBreakpointsStopThreads_pass :
    let s : State := mst { regs with threads := [(0, { th with bpPass := some 0x1000 }), (1, { th with bpPass := some 0x1000 })] }
    let w : State := mst { regs with wide := true }
    s.operandsOk (Shape.plain u.guard) ∧ s.on u.guard &&& ~~~ s.iw.passing s.iss = 0 ∧
    (mst regs).on v.guard &&& ~~~ (mst regs).iw.passing (mst regs).iss ≠ 0 ∧
    w.operandsOk (Shape.plain u.guard) ∧ w.iw.enters w.iss.mask = true := by
  unfold State.operandsOk; decide +kernel

/-- A warp-wide strand stands behind the handler. -/
theorem witness_TrapReturnRestores_wide :
    let tr : TrapState := { TrapState.init with pc := 0x1008, len := 2, rpc := 0x1000, inTrap := true }
    let s : State := st { regs with trapWide := true, threads := [(0, { th with trap := tr }), (1, { th with trap := tr })] }
    s.operandsOk (Shape.plain u.guard) ∧ s.on u.guard ≠ 0 ∧ s.iw.trapWide = true ∧
    ∀ l, hasLane (s.on u.guard) l = true → (s.iw.thread l).trap.inTrap = true := by
  refine ⟨?_, ?_, ?_, lane_all _ _ ?_⟩
  all_goals try unfold State.operandsOk
  all_goals decide +kernel

/-- A saved thread comes back to a blocking instruction; a uniform destination under a guard that the lowest thread fails. -/
theorem witness_OperandCheckOrder_more :
    let sh : Shape := { guard := v.guard, srcs := [(.near 3, 1)], dsts := [(.uniform 9, 1)], strand := false, seals := false }
    let back : Warp := { regs with threads := [(0, { th with needHdr := true, again := true }), (1, th)] }
    (∀ l, l < 2 → (back.thread l).needHdr = true → (back.thread l).again = true) ∧
    ({ Shape.sealing u.guard [] with blocks := true } : Shape).blocks = true ∧ sh.xlane = false ∧ regs.guarded 3 v.guard = 2 ∧
    hasLane (regs.guarded 3 v.guard) (lowest 3) = false ∧ (Opd.near 3).stale regs 1 1 = true := by
  decide +kernel

/-- Footprints that an abandoned strand left: a thread has not come to the end of the strand again, or all have, or the strand is behind
the handler. -/
theorem witness_StrandEndsWaitAndCommit_foot :
    let w : Warp := { regs with foot := [(spad 0, spad 64)], footAt := 0x1000 }
    (mst w).iw.foot ≠ [] ∧ (mst w).iw.wide = false ∧
    (hasLane (mst w).iw.live 1 = true ∧ hasLane 1 1 = false ∧ ((mst w).iw.thread 1).rpc = (mst w).iw.footAt) ∧
    (mst w).iw.trapWide = false ∧ (∀ l, l < 32 → hasLane (mst w).iw.live l = true → hasLane 3 l = true) ∧
    (mst { w with trapWide := true }).iw.trapWide = true := by
  decide +kernel

/-- The Hadamard unit is taken, or a request stands before this one. -/
theorem witness_AccumulatorClearedLoadedTransformed_taken :
    let s : State := tst tw
    let c : Core := s.core 0
    ¬ (s.round < c.hadFree ∨ c.hadQ.headD s.iss.gw ≠ s.iss.gw) ∧
    (let z : State := s.setCore 0 { c with hadFree := s.round + 1 }
     z.round < (z.core 0).hadFree ∧ z.operandsOk (wideShape u.guard [(hn 7, 1), (.imm 3, 1)])) ∧
    (let z : State := s.setCore 0 { c with hadQ := [16] }
     (z.core 0).hadQ.headD z.iss.gw ≠ z.iss.gw) ∧
    ¬ (s.round < c.aliasFree ∨ c.aliasQ.headD s.iss.gw ≠ s.iss.gw) ∧
    (let z : State := s.setCore 0 { c with aliasFree := s.round + 1 }
     z.round < (z.core 0).aliasFree ∧ z.operandsOk (wideShape u.guard [(hn 9, 1), (hn 10, 1)])) := by
  unfold State.operandsOk; decide +kernel

/-- A kick that waits behind the host's earlier access. -/
theorem witness_LaunchesRunParcels_waits :
    lst.hostWaits = false ∧ ({ lst with extQ := [.kick 1 0 0] } : State).hostWaits = true ∧
    (let s : State := { lst with mem := [(0x3001FD, 208)] }
     s.hostWaits = false ∧ (s.contract 1).v = true ∧ s.qLog 1 31 = 13) := by
  decide +kernel

/-- A parcel whose boxes have landed, and one with a box on its way. -/
theorem witness_LaunchesRunParcels_start :
    let p : Parcel := { parcelOf 0 prec with state := .staging, place := [(0, 0)], quadsAt := [(0, 0)] }
    let x : Launch := { launch with image := 0x8000, parcels := [p] }
    let s : State := { imst with launches := [x] }
    let wait : State := { s with jobs := [{ someJob with pseq := 0, box := some 0 }] }
    s.launch? 1 5 = some x ∧ s.parcel? 1 5 0 = some p ∧ p.state = .staging ∧ p.resumed = false ∧ s.jobs = [] ∧
    (∃ j ∈ wait.jobs, j.vdev = 1 ∧ j.lseq = 5 ∧ j.pseq = 0 ∧ j.box.isSome = true) ∧
    (match s.readStart x p with
      | (_, some ws) => decide ((ws.map (·.1)).Nodup) && ws.all (fun e => e.2.tmask != 0)
      | _ => false) = true := by
  decide +kernel

/-- Warps of the device on all its quadrants; none on its quadrant, where a job has not started and a parcel runs. -/
theorem witness_PreemptionSavesAndResumes_end :
    let own : List (Nat × Core) := [(0, { Core.init with own0 := 1 })]
    let s : State := { sst slc with cores := own, jobs := [{ someJob with box := some 0 }] }
    let z : State := { sst slc with cores := own, warps := [], resident := [], jobs := [someJob] }
    (∀ q ∈ s.quadsOf 1, ∃ gw ∈ s.resident, quadOfWarp gw = q ∧ (s.warp gw).vdev = 1) ∧
    0 ∈ z.quadsOf 1 ∧ (∀ gw ∈ z.resident, quadOfWarp gw = 0 → (z.warp gw).vdev ≠ 1) ∧ someJob.vdev = 1 ∧ quadOfWarp someJob.gw = 0 ∧
    someJob.box = none ∧ someJob.state = .queued ∧ z.parcel? 1 5 parcel.pseq = some parcel ∧ parcel.state = .running ∧
    (∃ e ∈ parcel.quadsAt, e.2 = 0) ∧ z.coreSaved 1 5 parcel.pseq (coreOfQuad 0) = false := by
  decide +kernel

/-- A held member of a gang that goes on elsewhere; a held warp without a handler that has a job that has not started. -/
theorem witness_PreemptionSavesAndResumes_gang :
    let w : Warp := { regs with gangGrps := [0] }
    let s : State := { heldState slc w with warps := [(0, w), (16, w)], resident := [0, 16] }
    let z : State := { heldState { slc with phndl := 0 } regs with jobs := [someJob, { someJob with id := 3, gw := 16 }] }
    0 ∈ s.resident ∧ s.asked 0 = true ∧ s.fullyHeld 0 = true ∧ s.resultsOut 0 (s.warp 0).live = false ∧ s.gangOpen 0 = true ∧
    0 ∈ z.resident ∧ z.asked 0 = true ∧ z.fullyHeld 0 = true ∧ z.resultsOut 0 (z.warp 0).live = false ∧ (z.warp 0).foot = [] ∧
    z.badW = [] ∧ (z.contract 1).phndl = 0 ∧ someJob.unstarted = true ∧ (z.warp 0).ofParcel someJob.vdev someJob.lseq someJob.pseq = true ∧
    z.parcel? 1 5 2 = some parcel ∧ quadOfWarp 16 ≠ quadOfWarp 0 := by
  decide +kernel

/-- A core that has drained and is being scanned; one that begins to drain under a running parcel. -/
theorem witness_PreemptionSavesAndResumes_scan :
    let own (x : Core) : Core := { x with own0 := 1, own1 := 1, own2 := 1, own3 := 1 }
    let d (n : Nat) : State := { lst with
      launches := [], warps := [], resident := [], cores := [(0, own { Core.init with survey := .draining, begun := 1, scanLeft := n })] }
    let s : State := { lst with pclk := 5000000 }
    ((d 0).core 0).scanLeft = 0 ∧ ((d 7).core 0).scanLeft ≠ 0 ∧ (d 0).drained 0 = true ∧ (d 0).savedJobs = [] ∧ (d 0).badW = [] ∧
    launch ∈ s.launches ∧ s.parcel? 1 5 parcel.pseq = some parcel ∧ parcel.state = .running ∧ s.placedOn launch parcel 0 = true ∧
    s.coreSaved 1 5 parcel.pseq 0 = false ∧ (0 ∈ s.resident ∧ coreOfQuad (quadOfWarp 0) = 0) := by
  decide +kernel

/-- A run-ahead member of the run's samples: a sampled load of quadrant 0 in flight. -/
theorem witness_WatchSlotsAndSamplers_stop :
    let x : MemSample := { run := 0, pc := 0x1000, act := 3, last := 10, sect := 1, lines := 1, rpl := 0, clk := 10 }
    let s : State := { mst memw with flights := [{ flight .load with sample := some x }] }
    (∃ f ∈ s.flights, f.iss.quad = s.iss.quad ∧ f.sample.isSome = true) ∧ s.operandsOk (Shape.plain u.guard) ∧ s.on u.guard ≠ 0 ∧
    (mst memw).flights = [] ∧ (mst memw).held = [] := by
  unfold State.operandsOk; decide +kernel

/-- The closure's home is being surveyed. -/
theorem witness_OperationsInFlightEnd_survey :
    let r : CloReq := { op := .arrive, x := false, t := 0x40, g := 2 }
    let c : Flight := { flight .closure with clo := some r }
    let s : State := { fly c with cores := [(0, { (fly c).core 0 with survey := .draining })] }
    ({ s with iss := c.iss } : State).tractPlace r.x r.t = some (0, 0x40) ∧ (s.core 0).survey ≠ .none ∧ ((fly c).core 0).survey = .none := by
  decide +kernel

/-- Of five warps the outgoing one was chosen in the last clock: no thread of it has become ready since, or both have. A page whose
invalidation goes on. -/
theorem witness_FetchWindowAndRunAhead_exchange :
    let q (m : Mask) : Quad := { Quad.init with clock := 5000, win := [.warp 0, .warp 1, .warp 2, .warp 3], outSnap := some (0, m) }
    let five (m : Mask) : State := { mst regs with
      warps := (List.range 5).map (fun k => (k, { wp with last := some k })), resident := [0, 1, 2, 3, 4], quads := [(0, q m)] }
    let i : Inval := { vdev := 1, page := pageOf 0x1000, big := true, old := none, cause := 0x10, table := none }
    let s : State := { mst regs with inval := [i] }
    ((five 3).incoming 0).head? = some 4 ∧ (q 3).active.contains 0 = true ∧ Pos.empty ∉ (q 3).win ∧
    ((five 3).warp 0).readyLanes &&& ~~~ 3 = 0 ∧ ((five 0).warp 0).readyLanes &&& ~~~ 0 ≠ 0 ∧ (five 3).runs = [] ∧
    ((five 3).warp 0).allAtBoundary = true ∧ (mst regs).tlb? 0 1 0x1000 = none ∧ s.tlb? 0 1 0x1000 = none ∧
    (s.invalAt 1 0x1000).isSome = true ∧ (mst regs).invalAt 1 0x1000 = none := by
  decide +kernel

/-- A full set of the instruction cache gives up a line for the next one with its index. -/
theorem witness_FetchWindowAndRunAhead_victim :
    let key : Nat := 2 ^ 50 + 0x20
    let c : Core := { Core.init with icOrder := (List.range 8).map (fun i => (key + 64 * (i + 1), 0)) }
    c.victim key 0 8 ≠ none ∧ (Core.init).victim key 0 8 = none := by
  decide +kernel

/-! ### Witnesses: further clauses -/

/-- Thread 1 is not in a handler: alone guard-true, and beside thread 0 that is; a warp-wide strand. -/
theorem witness_TrapReturnRestores_outside :
    let tr : TrapState := { TrapState.init with pc := 0x1008, len := 2, rpc := 0x1000, inTrap := true }
    let w : Warp := { regs with threads := [(0, { th with trap := tr }), (1, th)], pred := [(1, 1)] }
    let s : State := st w
    s.operandsOk (Shape.plain u.guard) ∧ s.operandsOk (Shape.plain v.guard) ∧ s.on u.guard = 3 ∧ s.on v.guard = 2 ∧
    (∀ l, l < 32 → (hasLane (2 : Mask) l = true ↔ hasLane (s.on u.guard) l = true ∧ (s.iw.thread l).trap.inTrap = false)) ∧
    s.iw.wide = false ∧ s.iw.trapWide = false ∧ (st { w with wide := true }).operandsOk (Shape.plain u.guard) := by
  unfold State.operandsOk; decide +kernel

/-- A closure of the tract's last core at its last granule, and a form that states its dwords whole. -/
theorem witness_FaultRecordLayout_forms :
    let j : Job := { someJob with clo := some (3, 0x3FFF0, spad 0x3FFF0), gw := 24575 }
    j.gw < 24576 ∧ (0x3FFF0 : Nat) < 2 ^ 23 ∧ someJob.clo = none ∧
    ({ record with d3 := some 1, tail := some [1, 2, 3, 4] } : Rec).pages.length ≤ 8 := by decide

theorem witness_StrandEndsWaitAndCommit_waits :
    let w : Warp := { regs with groups := 0x8, gangGrps := [0], wide := true }
    let s : State := { mst w with warps := [(0, w), (1, w)], resident := [0, 1] }
    s.operandsOk { Shape.plain hdrC.guard with strand := true } ∧ s.operandsOk (Shape.sealing u.guard []) ∧
    s.operandsOk (Shape.sealing u.guard [(.hold 2, 2)]) ∧ s.iw.trapWide = false ∧ ∃ x ∈ s.gangOthers s.iss.gw, (s.warp x).gangEnd = false := by
  unfold State.operandsOk; decide +kernel

theorem witness_SpecialRegisterReads_tiers : (mst regs).hbm.limit < 2 ^ 32 ∧ (mst regs).cxl.limit < 2 ^ 32 := by decide +kernel

/-- A range past the last address, an address out of range, slot 8; bases that are not aligned, out of range and on no page. -/
theorem witness_WatchSlotsAndSamplers_traps :
    let s : State := mst { memw with hold := [(4, 0xFFFFFFC0), (5, 0xFFFFFFFF), (6, 0), (7, 0x02000000), (8, 0x420), (10, 0x2000000)] }
    let op (o : Opd) : Dword := o.val s.iw s.iss 0 (lowest (s.on u.guard)) .i64
    s.operandsOk (Shape.reading u.guard [(.hold 4, 2), (.imm 65, 1), (.imm 7, 1)]) ∧ s.operandsOk (Shape.reading u.guard [(.imm 8, 1)]) ∧
    canonical (op (.hold 4)) = true ∧ 2 ^ 57 < (op (.hold 4)).toNat % 2 ^ 57 + 65 ∧
    s.operandsOk (Shape.reading u.guard [(.hold 6, 2), (.imm 16, 1), (.imm 1, 1)]) ∧ canonical (op (.hold 6)) = false ∧
    (op (.hold 6)).toNat % 64 = 0 ∧ (op (.hold 8)).toNat % 64 ≠ 0 ∧ (op (.hold 10)).toNat % 64 = 0 ∧ canonical (op (.hold 10)) = true ∧
    (let smp : Sampler :=
      { mode := 1, vdev := 1, base := 0x2000000, per := 16, cap := 1, fill := 0, drop := 0, start := 10, count := 0, next := 0 }
     (s.feStore (dieOfQuad s.iss.quad) s.iw.vdev 0x2000000 (dwordBytes smp.header)).2.isOk = false) := by
  unfold State.operandsOk; decide +kernel

/-- A dead closure for each operation; descriptors of E = 0 and of bits above; a closure whose arrivals are at their end. -/
theorem witness_ClosureOperations_traps :
    let s : State := mst memw
    let full : State := { mst memw with mem := tables ++ [(spad 0x46, 2), (spad 0x48, 0xFF), (spad 0x49, 0xFF), (spad 0x4A, 0x80)] }
    s.on u.guard ≠ 0 ∧ s.mayIssue (Shape.sealing u.guard [(.imm 0x40, 1), (.imm 0, 1), (.hold 2, 1)]) ∧
    s.mayIssue (Shape.sealing u.guard [(.imm 0x40, 1), (.imm 0, 1)]) ∧
    s.mayIssue { Shape.sealing u.guard [(.imm 0x40, 1), (.imm 0, 1), (.hold 2, 1)] with blocks := true } ∧
    s.operandsOk (Shape.reading u.guard [(.imm 0x40, 1), (.imm 0, 1), (.hold 2, 1)]) ∧
    s.fencePending .rel s.iss.gw (s.on u.guard) = false ∧ s.badW = [] ∧ (s.tractPlace false 0x40) = some (0, 0x40) ∧
    full.mayIssue (Shape.sealing u.guard [(.imm 0x40, 1), (.imm 0, 1)]) ∧ (BitVec.ofNat 64 (full.valueAt (spad 0x48) 8) : Dword).getLsbD 23 = true ∧
    65535 < field (BitVec.ofNat 64 (full.valueAt (spad 0x48) 8)) 15 0 + laneCount (full.on u.guard) ∧
    full.fencePending .rel full.iss.gw (full.on u.guard) = false := by
  unfold State.mayIssue State.operandsOk; decide +kernel

/-- An element on a page that is not there; a collective that has been sent, and one whose every part has been done. -/
theorem witness_EngineJobsRun_fault :
    let j : Job := running .cpyIn
    let s : State := { jst [j] with mem := [] }
    s.jobs.find? (fun x => x.id == 2 && x.tract == 0 && x.state == .running) = some j ∧ s.jobClosed j 0 = false ∧
    s.jobHeldBack j 0 = false ∧ j.clo = none ∧ j.subbed = j.moved / 2 ∧ j.coords 0 = some (0, [1, 0, 0, 0]) ∧
    (s.translate 0 1 0x410 false false).2 = .fault 0x10 := by decide +kernel

theorem witness_EngineJobsRun_collEnds :
    let j : Job := { collJob .running with sent := true, landed := [0, 1], moved := 64 }
    let q : Job := { collJob .queued with sent := true }
    (jst [q]).jobs.find? (fun x => x.id == 2 && x.tract == 0 && x.state == .queued) = some q ∧
    (jst [j]).jobs.find? (fun x => x.id == 2 && x.tract == 0 && x.state == .running) = some j ∧
    j.kind = .coll ∧ j.sent = true ∧ j.flits = [] ∧ j.collWaits = false ∧ j.uncombined = false ∧ j.clo = none ∧
    (collJob .running).uncombined = true ∧ (jst [j]).jobClosed j j.cloCore = false := by decide +kernel

/-- No parcel is ready; a parcel whose cores have passed, and one whose core has not. -/
theorem witness_LaunchesRunParcels_settled :
    let at' (n : Nat) : State := { lst with
      warps := [], resident := [], cores := [(0, { Core.init with passed := n })],
      launches := [{ launch with parcels := [{ parcel with ranOn := [(0, 0)] }] }] }
    (inState .running).poolHead 1 = none ∧ (at' 1).parcelOver 1 5 2 = true ∧ (at' 0).parcelOver 1 5 2 = true ∧
    ((at' 1).core 0).passed = 1 ∧ ((at' 0).core 0).passed = 0 ∧
    (at' 0).parcel? 1 5 2 = some { parcel with ranOn := [(0, 0)] } := by decide +kernel

/-- A bad word outside a warp's hold registers; no closure and no section waits for a device that returns. -/
theorem witness_PreemptionSavesAndResumes_words :
    let z : State := vst { slc with rights := false } regs
    let s : State := { heldState slc regs with badW := [holdWord 1 0] }
    z.badW = [] ∧ (∀ y ∈ z.launches, ∀ p ∈ y.parcels, p.imgOut = []) ∧ z.jobs = [] ∧ s.walked = [] ∧
    (∀ k ∈ s.badW, k < holdWord 0 0 ∨ holdWord 0 0 + 8192 ≤ k) := by decide +kernel

/-- An entry of level 2 being invalidated, whose page no walk names otherwise; a pair of bad words that a walk has found. -/
theorem witness_MemoryTiersChange_tables :
    let i : Inval := { vdev := 1, page := pageOf 0x1000, big := true, old := none, cause := 0, table := some (2, 0x100000, 0x10) }
    let s : State := { lst with inval := [i] }
    let b : State := { lst with badW := [40, 41], walked := [40, 41] }
    s.inval.find? (fun i => i.vdev == 1 && i.page == pageOf 0x1000) = some i ∧ s.held = [] ∧
    b.badW.filter (fun w => b.parityGroup w == b.parityGroup 40) = [40, 41] ∧ 40 ∈ b.walked ∧
    b.parityGroup 41 = b.parityGroup 40 ∧ 160 / 4 ≤ 41 ∧ 41 ≤ (160 + 8 - 1) / 4 := by decide +kernel

/-- A page of device 1 moved from the frame 0x4000000 whose invalidation a round of copies ends. -/
theorem witness_TenantsConfigured_round :
    let i : Inval := { vdev := 1, page := pageOf 0x1000, big := true, old := some (0xFC00000004000000, true), cause := 0, table := none }
    let s : State := { lst with inval := [i] }
    (s.contract 1).v = true ∧ s.held = [] ∧ pteMig 0xFC00000004000000 = true ∧
    (match s.walk 1 i.page with
      | .ok (n, big, _) => !(pteMig n) && leafFrame 0xFC00000004000000 true != leafFrame n big
      | .error _ => false) = true ∧ (∀ y ∈ s.launches, ∀ p ∈ y.parcels, p.imgOut = []) := by decide +kernel

/-- A halted saved warp whose parcel's accumulator is in the image, or is to go in whole. -/
theorem witness_DebuggerOrders_fields :
    let p : Parcel := { parcel with place := [(0, 0)] }
    let z (w : Warp) : State := vst dev w
    (z { regs with halts := [5] }).saved = [{ gw := 0, warp := { regs with halts := [5] } }] ∧ (z regs).badW = [] ∧
    ((z regs).contract 1).dbg = true ∧ (∀ y ∈ (z regs).launches, ∀ p ∈ y.parcels, p.imgOut = []) ∧
    p.quadsAt.find? (fun e => e.1 == 0) = some (0, 0) ∧ 0 ∈ p.accQuads ∧ 0 ∉ p.imgFull ∧ 0 ∈ ({ p with imgFull := [0] } : Parcel).imgFull := by
  decide +kernel

/-- Ports 4 and 5 lead to peer 9, and a job's flit is out on port 4, which fails; port 4 has sent ten flits; block 0 of storage goes to a
page in migration. -/
theorem witness_FabricAndHostAccess_ports :
    let j : Job := { collJob .running with flits := [(4, 3)] }
    let p : Port := { Port.init with peer := 9, tx := 10 }
    let s : State := { lst with jobs := [j], ports := [(4, { p with ok := false }), (5, p)] }
    let m : State := { lst with mem := [(0x80002, 0x10), (0x80007, 0x80), (0x100003, 0x02), (0x100007, 0xFC)] }
    s.peerPort 9 = some 5 ∧ p.peer ≠ 0xFFFF ∧ (10 - 3 : BitVec 24).toNat < 2 ^ 23 ∧ s.savedJobs = [] ∧
    (∀ x ∈ s.jobs ++ s.savedJobs, ∀ f ∈ x.flits, f.1 ≠ 6) ∧ (m.translate 8 1 0x1040 true false).2 = .ok 0x2001040 true ∧ m.held = [] := by
  intro j p s m
  have ports : s.peerPorts 9 = [5] := by decide +kernel
  refine ⟨?_, by decide +kernel⟩
  rw [State.peerPort, ports]
  simp [Nat.mod_one]

/-- A peer with one working port. -/
theorem witness_FabricAndHostAccess_peer :
    ({ lst with ports := [(4, { Port.init with seq := 7, peer := 9 }), (5, { Port.init with ok := false })] } : State).peerPort 9 = some 4 := by
  have ports : ({ lst with ports := [(4, { Port.init with seq := 7, peer := 9 }), (5, { Port.init with ok := false })] } :
    State).peerPorts 9 = [4] := by decide +kernel
  rw [State.peerPort, ports]
  simp [Nat.mod_one]

/-- A transfer of ownership from a part that was never booted. -/
theorem witness_BootOwnershipAndPower_images : lst.bootImgs = [] ∧ State.reset.bootImgs = [] := by decide +kernel

/-! ### Witnesses: words and steps -/

theorem witness_EncodingsDecodeBack :
    let i : Instr := .fadd u .rne (nd 0) (.latch 0) (.hold 2)
    i.wf = true ∧ encode i = some [0x1D000016, 0x910] := by
  decide

/-- `NOP`, words that are no instruction, or `FENCE.ar.warp` behind a load in flight, placed to issue next. -/
theorem witness_StepIssuesDecodedInstruction :
    let s : State := State.reset.withFetchWord 64 0x1C001CE2
    let z : State := State.reset.withFetchWord 64 0
    let f : State := { State.reset.withFetchWord 64 0x1C00008A with flights := [{ flight .load with mask := 1, due := 100 }] }
    let up (s : State) : State := { s with tick := s.tick + 1 }.catchUp 0
    (∀ x ∈ [s, z, f], x.stopped = false ∧ x.sched = [] ∧ x.turn = 1 ∧ ((up x).quad 0).throttled = false ∧ (up x).coolantBad = false ∧
      (up x).badW = [] ∧ (up x).firstOf ((up x).quadEvents 0) = none ∧ (up x).fetching 0 = none ∧
      (up x).choose 0 = some (0, 1, 0) ∧ (up x).breakLanes 0 1 0 = 0) ∧
    (up s).fetch 0 65536 0 = .words [0x1C001CE2, 0] ∧ decode [0x1C001CE2, 0] = .ok (.nop u) ∧
    went (exec (.nop u) ((up s).beginIssue 0 0 1 0 2)) = true ∧ (after (exec (.nop u) ((up s).beginIssue 0 0 1 0 2))).stillWaits 0 1 = false ∧
    (((after (exec (.nop u) ((up s).beginIssue 0 0 1 0 2))).warp 0).thread 0).bpPass = none ∧
    (up f).fetch 0 65536 0 = .words [0x1C00008A, 0] ∧ decode [0x1C00008A, 0] = .ok (.fence u .ar .warp) ∧
    (after (exec (.fence u .ar .warp) ((up f).beginIssue 0 0 1 0 2))).stillWaits 0 1 = true ∧
    (∃ ws, (up z).fetch 0 65536 0 = .words ws ∧ decode ws = .error .illegalOpcode) := by
  refine ⟨by decide +kernel, by decide +kernel, by decide, by decide +kernel, by decide +kernel, by decide +kernel, by decide +kernel, by decide,
    by decide +kernel, [0], by decide +kernel, by decide⟩

theorem witness_StepIssuesDecodedInstruction_break :
    let s : State := { mst { regs with vdev := 1 } with
      contracts := [(1, { dev with debug := [(4, 0x4000000000001000), (5, 5)] })] }
    s.breakLanes 0 3 0x1000 = 3 := by
  decide +kernel

/-- After reset the memory is in its canonical form and a step answers a next state. -/
theorem witness_StepsKeepMemoryCanonical : State.reset.inv ∧ ∃ t, step State.reset = .next t := by
  refine ⟨by unfold State.inv; decide +kernel, ?_⟩
  simp [step, State.reset, dueInput]

/-! ### Ill-formed terms, one for each check, and words that the decoder refuses -/

def a0 : Guard := u.guard

/-- Odd pairs; a literal where no word holds one; a literal word that nothing names. -/
theorem test_ill_formed_operands : ∀ i ∈ ([
    .add u .w64 (hd 5) (.hold 2) (.hold 4), .add u .w64 (nd 5) (.hold 2) (.hold 4), .add u .w64 (wd 5) (.hold 2) (.hold 4),
    .add u .w64 (hd 4) (.hold 3) (.hold 4), .add u .w64 (hd 4) (.near 3) (.hold 4), .add u .w64 (hd 4) (.hold 2) (.uniform 5),
    .add u .w32 (hd 4) (.hold 2) .lit, .add (lit 7) .w32 (hd 4) (.hold 2) (.hold 3), .add { u with lit := 7 } .w32 (hd 4) (.hold 2) (.hold 3),
    .mad u .w64 (hd 4) (.hold 2) (.hold 4) (.hold 7), .mov u .w64 (hd 4) (.hold 3), .cmp u .eq .w64 1 .none (.hold 3) (.hold 4),
    .srr u .laneid (hd 3), .brx u (.hold 3), .watchW u (.hold 3) (.imm 1) (.imm 1), .ret (lit 7), .st u .w64 .plain 2 (.hold 2) (.hold 3),
    .ld u .w64 .plain (hd 3) 2 (.hold 2), .add64C (.hold 3) (.hold 2) (.hold 4), .sub64C (.hold 4) (.hold 5) (.hold 2), .mov64C (.hold 4) (.near 3)
    ] : List Instr), i.wf = false := by decide

/-- Destinations of the wrong level; the atomic's operands; fields that have one form only. -/
theorem test_ill_formed_fields : ∀ i ∈ ([
    .ld u .w32 .plain (wd 3) 2 (.hold 2), .lds u .w32 .plain (wd 3) (.hold 1) (.hold 2), .ldw u .w32 .plain (hd 3) 2 (.hold 2),
    .lpush u (wd 3) (.hold 2) (.hold 3) none, .lpush u .none (.hold 2) (.hold 3) none, .lpushWarp u (nd 3) (.hold 2) (.hold 3) (.imm 1),
    .atom a0 .fadd .w64 .rlx .pkg (hd 2) 1 (.hold 4) (.hold 6), .atom a0 .add .w32 .rlx .pkg (hd 2) 1 .lit (.hold 6),
    .atom a0 .add .w32 .rlx .pkg (hd 2) 1 (.hold 4) .lit, .atom a0 .cas .w32 .rlx .pkg (hd 2) 1 (.hold 4) (.hold 7),
    .atoms a0 .cas .w64 .rlx .pkg (hd 2) (.hold 1) (.hold 4) (.hold 6), .atoms a0 .add .w32 .rlx .pkg (wd 2) (.hold 1) (.hold 4) (.hold 6),
    .cvt u .f32f16 .rtz (hd 2) (.hold 3), .cvt u .f32i64 .rne (hd 2) (.hold 3), .cvt u .i64f32 .rne (hd 3) (.hold 2),
    .redx u .fadd .w64 (hd 2) (.hold 4), .scanx u true .fmax .w64 (hd 2) (.hold 4), .gath u false (some .lit) (.hold 1) (.hold 2) (.hold 3),
    .cpy u false (some (1, 2)) false none (.hold 1) (.hold 2) (.hold 4), .cpy (lit 0x00010003) false (some (1, 2)) false none (.hold 1) (.hold 2) (.hold 4),
    .mma u .bf16 .d32 .d32 true .quad (.hold 1) (.hold 2), .mmag u .f32 .d32 .d32 true .quad (.hold 1) (.hold 2) (.hold 3),
    .acld u (some .lit) none (.hold 1), .acst u true .rtz none (.hold 1), .salias a0 0 .lit (.hold 1),
    .spot a0 0 .d32 .d32 .b8 .quad .lit (.hold 1) (.hold 4), .spot a0 0 .d32 .d32 .b8 .quad (.hold 1) .lit (.hold 4)
    ] : List Instr), i.wf = false := by decide

/-- A word that is no instruction is refused by name (R47, R50, R53, R67). -/
theorem test_decode_refuses :
    decode [0x1C000001] = .error .illegalLength ∧ decode [0x1C050006, 0x00100D02] = .error .reservedField ∧
    decode [0x1C05000E, 0x000003FF] = .error .illegalOperand ∧ decode [0x1C05FC06, 0x00000D02] = .error .illegalOpcode := by decide

/-! ### Results that the spec works out -/

/-- The one result of a computation in lane 0, `h9`. -/
def got (i : Instr) (w : Warp) : Word := ((after (exec i (st w))).warp 0).getHold 0 9

/-- R103: `SHL.i32` by 33 shifts by 1, and `SAR.i32` of 0x8000_0010 by 4 gives 0xF800_0001. -/
theorem test_shift_examples :
    got (.shl u .w32 (hd 9) (.hold 2) (.imm 33)) regs = 14 ∧
    got (.sar u .w32 (hd 9) (.hold 2) (.imm 4)) { regs with hold := [(2, 0x80000010)] } = 0xF8000001 := by decide +kernel

/-- spec/04: `CVT.n8.f32` of -0.4 and 255.6, `CVT.i32.f32` of 3.0e9, `CVT.e4m3.f32` of 460.0 rounding up. -/
theorem test_conversion_examples :
    got (.cvt u .n8f32 .rne (hd 9) (.hold 2)) { regs with hold := [(2, 0xBECCCCCD)] } = 0 ∧
    got (.cvt u .n8f32 .rtz (hd 9) (.hold 2)) { regs with hold := [(2, 0x437F999A)] } = 255 ∧
    got (.cvt u .i32f32 .rne (hd 9) (.hold 2)) { regs with hold := [(2, 0x4F32D05E)] } = 2147483647 ∧
    got (.cvt u .e4m3f32 .rup (hd 9) (.hold 2)) { regs with hold := [(2, 0x43E60000)] } = 0x7E := by decide +kernel

/-- spec/05: `FRND` of 2.5, -0.4, -0.6 and 0.5. -/
theorem test_frnd_examples :
    got (.frnd u .rne (hd 9) (.hold 2)) { regs with hold := [(2, 0x40200000)] } = 0x40000000 ∧
    got (.frnd u .rne (hd 9) (.hold 2)) { regs with hold := [(2, 0xBECCCCCD)] } = 0x80000000 ∧
    got (.frnd u .rup (hd 9) (.hold 2)) { regs with hold := [(2, 0xBF19999A)] } = 0x80000000 ∧
    got (.frnd u .rdn (hd 9) (.hold 2)) { regs with hold := [(2, 0x3F000000)] } = 0 := by decide +kernel

/-- spec/05: `FNMA` with a = 1, b = +0 and c = +0 gives +0 under RNE and -0 under RDN. -/
theorem test_fnma_zero_example :
    got (.fnma u .rne (hd 9) (.hold 2) (.hold 3) (.hold 3)) { regs with hold := [(2, 0x3F800000)] } = 0 ∧
    got (.fnma u .rdn (hd 9) (.hold 2) (.hold 3) (.hold 3)) { regs with hold := [(2, 0x3F800000)] } = 0x80000000 := by decide +kernel

/-- A guard that only one lane passes: `?!p1` holds in lane 1, since `p1` is true in lane 0 (R57). -/
theorem test_guard_writes_its_lanes :
    let s := after (exec (.add v .w32 (hd 9) (.hold 2) (.hold 3)) (st regs))
    (s.warp 0).getHold 0 9 = 0 ∧ (s.warp 0).getHold 1 9 = 2 ∧ ((s.warp 0).thread 0).pc = 0x1008 := by decide +kernel

end Sys2Proof.Slice0
end

section
/-! SUPPORT. `CMP` and `FCMP` (spec/05 R108, R109): both run the one comparison shape `cmpDesc`, so what that shape computes is
said once, and each of them only names its condition and how its operands read. -/

namespace Sys2Proof.Machine

theorem exec_cmp (h : Hdr) (cond : CmpCond) (w : Width) (pd : BitVec 3) (cb : Combine) (a b : Opd) (s : State) :
    exec (.cmp h cond w pd cb a b) s =
      (cmpDesc h pd cb (a, widthTy w) (b, widthTy w) (cond.holds w)).run s := rfl

theorem exec_fcmp (h : Hdr) (cond : FCmpCond) (f : CmpFmt) (pd : BitVec 3) (cb : Combine) (a b : Opd) (s : State) :
    exec (.fcmp h cond f pd cb a b) s =
      (cmpDesc h pd cb (a, cmpFmtTy f) (b, cmpFmtTy f) (fun x y => cond.holds (f.value x) (f.value y))).run s := rfl

/-- An instruction that runs the comparison shape writes its condition, joined with a predicate as it stood before the write, to its
one predicate (R109). -/
theorem computes_of_run_cmpDesc {i : Instr} {h : Hdr} {pd : BitVec 3} {cb : Combine} {a b : Opd × Ty} {c : Dword → Dword → Bool}
    (he : ∀ s, exec i s = (cmpDesc h pd cb a b c).run s) :
    Computes i h (.pred pd) [a, b]
      (fun _ pr xs => if cb.join pr (c (xs.getD 0 0) (xs.getD 1 0)) then 1 else 0) :=
  computes_of_run i h (.pred pd) [a, b] _ (cmpDesc h pd cb a b c) he rfl

/-- Settles O5: both instructions run the comparison shape, and for each way to combine, the statement's join is `Combine.join`. -/
theorem comparisonsWriteOnePredicate : Obligations.ComparisonsWriteOnePredicate := by
  intro h w ic fc fm pd cb a b
  have hcmp := computes_of_run_cmpDesc (exec_cmp h ic w pd cb a b)
  have hfcmp := computes_of_run_cmpDesc (exec_fcmp h fc fm pd cb a b)
  cases cb with
  | none => exact ⟨hcmp, hfcmp⟩
  | and neg q => exact ⟨hcmp, hfcmp⟩
  | or neg q => exact ⟨hcmp, hfcmp⟩
  | xor neg q => exact ⟨hcmp, hfcmp⟩

end Sys2Proof.Machine
end

section
/-! SUPPORT. `LPUSH` within a warp (spec/06 R149, R150). One lane's landing is `Warp.pushTo`, all of them `Warp.pushLanes`, and the
predicate that reports them `Warp.tellPushes`; what each register reads afterwards is said of these, level by level. -/

namespace Sys2Proof.Machine

/-! ### Shared rules: a checked instruction that only changes its warp -/

@[simp] theorem State.iw_setIw (s : State) (w : Warp) : (s.setIw w).iw = w := State.warp_setWarp_self s s.iss.gw w

theorem State.onlyWarp_setIw (s : State) (w : Warp) : s.onlyWarp (s.setIw w) :=
  ⟨rfl, fun gw hgw => by rw [State.setIw, State.warp_setWarp, if_neg hgw]⟩

/-- Behind its checks, an instruction that neither seals nor opens a strand does what its body says (R59). -/
theorem State.guardedRun_of_operandsOk {s : State} {sh : Shape} (hc : s.operandsOk sh) (hs : (sh.seals || sh.strand) = false)
    (body : State) : s.guardedRun sh body = .next body := by
  unfold State.operandsOk at hc
  simp [State.guardedRun, hc, hs]

/-- A warp whose threads stand as the issuer's do, once it has advanced. -/
theorem State.setGoesOn_setIw_advance {s : State} {w : Warp} (hw : ∀ l, w.thread l = s.iw.thread l) :
    s.setGoesOn (s.setIw (w.advance s.iss)) := by
  intro l
  rw [State.iw_setIw, Warp.advance, Warp.advanceIn, Warp.thread_mapThreads, hw]

@[simp] theorem Warp.mapThreads_getPred (w : Warp) (m : Mask) (f : Nat → Thread → Thread) (l p : Nat) :
    (w.mapThreads m f).getPred l p = w.getPred l p := by
  simp [Warp.getPred]

/-- A predicate written in the lanes of a mask reads back there and nowhere else; `p7` does not change (R26). -/
theorem Warp.getPred_setPredIn (w : Warp) (q p : Nat) (m v : Mask) {l : Nat} (hl : l < 32) :
    (w.setPredIn q m v).getPred l p = if (q == p && p != 7) && hasLane m l then hasLane v l else w.getPred l p := by
  unfold Warp.getPred
  rw [Warp.setPredIn, Warp.predMask_setPredMask]
  by_cases h7 : p = 7
  · simp [h7, Warp.predMask]
  · by_cases hq : p = q
    · subst hq
      cases hm : hasLane m l <;> simp [h7, hm, hasLane_not _ hl]
    · simp [h7, hq, Ne.symm hq]

/-! ### Where a push lands -/

/-- The lane whose push lands in a lane, which must be guard-true (R150). -/
def pushLanding (g : Mask) (tgt : Nat → Nat) (t : Nat) : Option Nat := if hasLane g t then pushFrom g tgt t else none

/-- A word after a push: the pushing lane's value, if a push lands and the destination names the word. -/
def pushedWord (src : Option Nat) (word : Option Word) (v : Nat → Dword) (old : Word) : Word :=
  match src, word with
  | some i, some _ => lo32 (v i)
  | _, _ => old

@[simp] theorem pushedWord_none_left (word : Option Word) (v : Nat → Dword) (old : Word) : pushedWord none word v old = old := rfl
@[simp] theorem pushedWord_none_right (src : Option Nat) (v : Nat → Dword) (old : Word) : pushedWord src none v old = old := by
  cases src <;> rfl
@[simp] theorem pushedWord_some (i : Nat) (x : Word) (v : Nat → Dword) (old : Word) :
    pushedWord (some i) (some x) v old = lo32 (v i) := rfl

/-- One lane receives a push, if one lands in it. -/
def Warp.pushTo (d : Dst) (v : Nat → Dword) (w : Warp) (t : Nat) (src : Option Nat) : Warp :=
  match d, src with
  | .reg r false, some i => w.writeVal t r false (v i)
  | _, _ => w

@[simp] theorem Warp.pushTo_none (d : Dst) (v : Nat → Dword) (w : Warp) (t : Nat) : w.pushTo d v t none = w := by
  rcases d with _ | ⟨_, _ | _⟩ <;> rfl
@[simp] theorem Warp.pushTo_discard (v : Nat → Dword) (w : Warp) (t : Nat) (src : Option Nat) : w.pushTo .none v t src = w := rfl
@[simp] theorem Warp.pushTo_noWrite (r : DReg) (v : Nat → Dword) (w : Warp) (t : Nat) (src : Option Nat) :
    w.pushTo (.reg r true) v t src = w := rfl
@[simp] theorem Warp.pushTo_some (r : DReg) (v : Nat → Dword) (w : Warp) (t i : Nat) :
    w.pushTo (.reg r false) v t (some i) = w.writeVal t r false (v i) := rfl

/-- Every guard-true lane receives its push (R150). -/
def Warp.pushLanes (w : Warp) (g : Mask) (d : Dst) (tgt : Nat → Nat) (v : Nat → Dword) : Warp :=
  (laneList g).foldl (fun x t => x.pushTo d v t (pushFrom g tgt t)) w

/-- The optional predicate: true in each guard-true lane whose push did not land (R150). -/
def Warp.tellPushes (w : Warp) (g : Mask) (tgt : Nat → Nat) (pc : Option (BitVec 3)) : Warp :=
  match pc with
  | none => w
  | some p => w.setPredIn p.toNat g (maskOf (fun i => !(hasLane g (tgt i) && pushFrom g tgt (tgt i) == some i)))

/-- The push reports to this predicate, and it is one that can be written (R26). -/
def namesPred (pc : Option (BitVec 3)) (p : Nat) : Bool :=
  match pc with
  | some q => q.toNat == p && p != 7
  | none => false

/-- A warp without its threads and without what a push may write. -/
def Warp.withoutPushable (w : Warp) : Warp := { w with threads := [], hold := [], near := [], nearW := [], pred := [] }

/-- The shape of a same-warp push for the checks of R59. -/
def lpushShape (h : Hdr) (d : Dst) (a b : Opd) : Shape :=
  { guard := h.guard, srcs := [(a, 1), (b, 1)], dsts := d.regs 1, strand := false, seals := false }

/-- The lane that each lane pushes to, and the value it pushes (R149). -/
def State.pushTarget (s : State) (h : Hdr) (b : Opd) (l : Nat) : Nat := (b.val s.iw s.iss h.lit l .i32).toNat % 32
def State.pushValue (s : State) (h : Hdr) (a : Opd) (l : Nat) : Dword := a.val s.iw s.iss h.lit l .i32

/-- The issuing warp after a same-warp push, before its threads go on. -/
def State.pushed (s : State) (h : Hdr) (d : Dst) (a b : Opd) (pc : Option (BitVec 3)) : Warp :=
  (s.iw.pushLanes (s.on h.guard) d (s.pushTarget h b) (s.pushValue h a)).tellPushes (s.on h.guard) (s.pushTarget h b) pc

theorem exec_lpush (h : Hdr) (d : Dst) (a b : Opd) (pc : Option (BitVec 3)) (s : State) :
    exec (.lpush h d a b pc) s = s.guardedRun (lpushShape h d a b) (s.setIw ((s.pushed h d a b pc).advance s.iss)) := rfl

/-! ### What one lane's landing changes -/

theorem Warp.pushTo_proj {β : Type} (d : Dst) (v : Nat → Dword) (w : Warp) (t : Nat) (src : Option Nat) (p : Warp → β)
    (hp : ∀ r x, d = .reg r false → p (w.writeVal t r false x) = p w) : p (w.pushTo d v t src) = p w := by
  cases src with
  | none => rw [Warp.pushTo_none]
  | some i =>
    rcases d with _ | ⟨r, _ | _⟩
    · rfl
    · exact hp r _ rfl
    · rfl

theorem Warp.getHold_pushTo (d : Dst) (v : Nat → Dword) (w : Warp) (t : Nat) (src : Option Nat) (l r : Nat) (hr : r < 256) :
    (w.pushTo d v t src).getHold l r =
      if l = t then pushedWord src ((Target.reg d false).holdWord r 0) v (w.getHold l r) else w.getHold l r := by
  cases src with
  | none => simp
  | some i =>
    rcases d with _ | ⟨reg, _ | _⟩
    · simp [Target.holdWord]
    · cases reg with
      | hold j =>
        rw [Warp.pushTo_some, Warp.getHold_writeVal _ _ _ _ _ _ _ (by simp) hr]
        by_cases hj : r = j.toNat <;> simp [Target.holdWord, hj]
      | near j => simp [Target.holdWord]; rfl
      | uniform j => simp [Target.holdWord]; rfl
    · cases reg <;> simp [Target.holdWord]

theorem Warp.getNear_pushTo (d : Dst) (v : Nat → Dword) (w : Warp) (t : Nat) (src : Option Nat) (l r : Nat) (hr : r < 16) :
    (w.pushTo d v t src).getNear l r =
      if l = t then pushedWord src ((Target.reg d false).nearWord r 0) v (w.getNear l r) else w.getNear l r := by
  cases src with
  | none => simp
  | some i =>
    rcases d with _ | ⟨reg, _ | _⟩
    · simp [Target.nearWord]
    · cases reg with
      | hold j => simp [Target.nearWord]; rfl
      | near j =>
        rw [Warp.pushTo_some, Warp.getNear_writeVal _ _ _ _ _ _ _ (by simp) hr]
        by_cases hj : r = j.toNat <;> simp [Target.nearWord, hj]
      | uniform j => simp [Target.nearWord]; rfl
    · cases reg <;> simp [Target.nearWord]

/-- A landing in a near register sets the written bit of the lane (R34). -/
theorem Warp.nearWritten_pushTo (d : Dst) (v : Nat → Dword) (w : Warp) {t : Nat} (ht : t < 32) (src : Option Nat) (l r : Nat) :
    hasLane ((w.pushTo d v t src).nearWritten r) l =
      if l = t then hasLane (w.nearWritten r) l || (src.isSome && ((Target.reg d false).nearWord r 0).isSome)
      else hasLane (w.nearWritten r) l := by
  cases src with
  | none => simp
  | some i =>
    rcases d with _ | ⟨reg, _ | _⟩
    · simp [Target.nearWord]
    · cases reg with
      | hold j => simp [Target.nearWord]; rfl
      | near j =>
        rw [Warp.pushTo_some, Warp.nearWritten_writeVal _ _ _ _ _ _ _ 0 ht]
        by_cases hl : l = t <;> simp [hl]
      | uniform j => simp [Target.nearWord]; rfl
    · cases reg <;> simp [Target.nearWord]

/-! ### What all landings change -/

theorem Warp.pushLanes_proj {β : Type} (w : Warp) (g : Mask) (d : Dst) (tgt : Nat → Nat) (v : Nat → Dword) (p : Warp → β)
    (hp : ∀ w t r x, d = .reg r false → p (Warp.writeVal w t r false x) = p w) : p (w.pushLanes g d tgt v) = p w :=
  foldl_same _ p _ (fun x t _ => Warp.pushTo_proj d v x t _ p (hp x t)) w

/-- What one lane's landing does to something read of a lane, all landings do to it in the guard-true lanes. -/
theorem Warp.pushLanes_read {γ : Type} (read : Warp → γ) (new : Option Nat → γ → γ) (hnone : ∀ x, new none x = x) (w : Warp)
    (g : Mask) (d : Dst) (tgt : Nat → Nat) (v : Nat → Dword) (l : Nat)
    (hone : ∀ x t src, t < 32 → read (Warp.pushTo d v x t src) = if l = t then new src (read x) else read x) :
    read (w.pushLanes g d tgt v) = new (pushLanding g tgt l) (read w) := by
  have hfold := foldl_lane (fun x t => Warp.pushTo d v x t (pushFrom g tgt t)) read l (new (pushFrom g tgt l)) (laneList g)
    (laneList_nodup g)
    (fun x t ht => by
      rw [hone x t _ (hasLane_lt (mem_laneList.mp ht))]
      by_cases hl : l = t
      · subst hl; rfl
      · simp [hl]) w
  rw [Warp.pushLanes, hfold, pushLanding]
  by_cases hg : hasLane g l <;> simp [mem_laneList, hg, hnone]

section
variable (w : Warp) (g : Mask) (d : Dst) (tgt : Nat → Nat) (v : Nat → Dword) (l : Nat) {r : Nat}

theorem Warp.getHold_pushLanes (hr : r < 256) : (w.pushLanes g d tgt v).getHold l r =
    pushedWord (pushLanding g tgt l) ((Target.reg d false).holdWord r 0) v (w.getHold l r) :=
  Warp.pushLanes_read (fun x => x.getHold l r) (fun src old => pushedWord src _ v old) (fun _ => rfl) w g d tgt v l
    (fun x t src _ => Warp.getHold_pushTo d v x t src l r hr)

theorem Warp.getNear_pushLanes (hr : r < 16) : (w.pushLanes g d tgt v).getNear l r =
    pushedWord (pushLanding g tgt l) ((Target.reg d false).nearWord r 0) v (w.getNear l r) :=
  Warp.pushLanes_read (fun x => x.getNear l r) (fun src old => pushedWord src _ v old) (fun _ => rfl) w g d tgt v l
    (fun x t src _ => Warp.getNear_pushTo d v x t src l r hr)

theorem Warp.getPred_pushLanes (p : Nat) : (w.pushLanes g d tgt v).getPred l p = w.getPred l p :=
  Warp.pushLanes_proj _ _ _ _ _ (fun w => w.getPred l p)
    (fun w t r x _ => Warp.writeVal_proj w t r false x (fun w => w.getPred l p) (fun _ _ _ _ _ => rfl))

theorem Warp.nearWritten_pushLanes (r : Nat) : hasLane ((w.pushLanes g d tgt v).nearWritten r) l =
    (hasLane (w.nearWritten r) l || ((pushLanding g tgt l).isSome && ((Target.reg d false).nearWord r 0).isSome)) :=
  Warp.pushLanes_read (fun x => hasLane (x.nearWritten r) l)
    (fun src old => old || (src.isSome && ((Target.reg d false).nearWord r 0).isSome)) (fun x => by simp) w g d tgt v l
    (fun x t src ht => Warp.nearWritten_pushTo d v x ht src l r)

end

/-! ### What the predicate says -/

theorem Warp.tellPushes_proj {β : Type} (w : Warp) (g : Mask) (tgt : Nat → Nat) (pc : Option (BitVec 3)) (p : Warp → β)
    (hp : ∀ (w : Warp) (f : NMap Mask), p { w with pred := f } = p w) : p (w.tellPushes g tgt pc) = p w := by
  cases pc with
  | none => rfl
  | some q =>
    simp only [Warp.tellPushes, Warp.setPredIn, Warp.setPredMask]
    split
    · rfl
    · exact hp w _

/-- A lane's push landed if its target is guard-true and holds its value. -/
theorem decide_pushLanding (g : Mask) (tgt : Nat → Nat) (l : Nat) :
    decide (pushLanding g tgt (tgt l) = some l) = (hasLane g (tgt l) && pushFrom g tgt (tgt l) == some l) := by
  unfold pushLanding
  cases hasLane g (tgt l)
  · simp
  · by_cases hs : pushFrom g tgt (tgt l) = some l <;> simp [hs]

/-- In the guard-true lanes the predicate is false exactly where the lane's push landed. -/
theorem Warp.getPred_tellPushes (w : Warp) (g : Mask) (tgt : Nat → Nat) (pc : Option (BitVec 3)) (p : Nat) {l : Nat}
    (hl : l < 32) : (w.tellPushes g tgt pc).getPred l p =
      if namesPred pc p && hasLane g l then !(decide (pushLanding g tgt (tgt l) = some l)) else w.getPred l p := by
  cases pc with
  | none => rfl
  | some q =>
    rw [Warp.tellPushes, Warp.getPred_setPredIn _ _ _ _ _ hl, hasLane_maskOf, decide_pushLanding]
    simp [hl, namesPred]

/-! ### The warp after the push -/

section
variable (s : State) (h : Hdr) (d : Dst) (a b : Opd) (pc : Option (BitVec 3)) (l r : Nat)

/-- What no register write and no predicate write changes, the push does not change. -/
theorem State.pushed_proj {β : Type} (p : Warp → β)
    (hv : ∀ w t r x, d = .reg r false → p (Warp.writeVal w t r false x) = p w)
    (hp : ∀ (w : Warp) (f : NMap Mask), p { w with pred := f } = p w) : p (s.pushed h d a b pc) = p s.iw :=
  (Warp.tellPushes_proj _ _ _ _ p hp).trans (Warp.pushLanes_proj _ _ _ _ _ p hv)

theorem State.pushed_thread : (s.pushed h d a b pc).thread l = s.iw.thread l :=
  s.pushed_proj h d a b pc (fun w => w.thread l)
    (fun w t r x _ => Warp.writeVal_proj w t r false x (fun w => w.thread l) (fun _ _ _ _ _ => rfl)) (fun _ _ => rfl)

/-- With a destination that is no uniform register, hold, near and predicate registers are all that a push writes. -/
theorem State.pushed_rest (hd : ∀ r nw, d ≠ .reg (.uniform r) nw) :
    (s.pushed h d a b pc).withoutPushable = s.iw.withoutPushable := by
  refine s.pushed_proj h d a b pc Warp.withoutPushable ?_ (fun _ _ => rfl)
  intro w t r x hr
  cases r with
  | hold j => rfl
  | near j => rfl
  | uniform j => exact absurd hr (hd j false)

theorem State.pushed_getHold (hr : r < 256) : (s.pushed h d a b pc).getHold l r =
    pushedWord (pushLanding (s.on h.guard) (s.pushTarget h b) l) ((Target.reg d false).holdWord r 0) (s.pushValue h a)
      (s.iw.getHold l r) :=
  (Warp.tellPushes_proj _ _ _ _ (fun w => w.getHold l r) (fun _ _ => rfl)).trans (Warp.getHold_pushLanes _ _ _ _ _ _ hr)

theorem State.pushed_getNear (hr : r < 16) : (s.pushed h d a b pc).getNear l r =
    pushedWord (pushLanding (s.on h.guard) (s.pushTarget h b) l) ((Target.reg d false).nearWord r 0) (s.pushValue h a)
      (s.iw.getNear l r) :=
  (Warp.tellPushes_proj _ _ _ _ (fun w => w.getNear l r) (fun _ _ => rfl)).trans (Warp.getNear_pushLanes _ _ _ _ _ _ hr)

theorem State.pushed_nearWritten : hasLane ((s.pushed h d a b pc).nearWritten r) l =
    (hasLane (s.iw.nearWritten r) l || ((pushLanding (s.on h.guard) (s.pushTarget h b) l).isSome &&
      ((Target.reg d false).nearWord r 0).isSome)) :=
  (Warp.tellPushes_proj _ _ _ _ (fun w => hasLane (w.nearWritten r) l) (fun _ _ => rfl)).trans
    (Warp.nearWritten_pushLanes _ _ _ _ _ _ _)

theorem State.pushed_getPred (p : Nat) (hl : l < 32) : (s.pushed h d a b pc).getPred l p =
    if namesPred pc p && hasLane (s.on h.guard) l then
      !(decide (pushLanding (s.on h.guard) (s.pushTarget h b) (s.pushTarget h b l) = some l))
    else s.iw.getPred l p :=
  (Warp.getPred_tellPushes _ _ _ _ p hl).trans (by rw [Warp.getPred_pushLanes])

end

/-- Settles O14: behind its checks the push goes on to `State.pushed`, advanced; each clause reads one level of that warp. -/
theorem lanePushWithinWarp : Obligations.LanePushWithinWarp := by
  intro h d a b pc s sh tgt winner v hd hc
  refine ⟨s.setIw ((s.pushed h d a b pc).advance s.iss), ?_, s.onlyWarp_setIw _,
    State.setGoesOn_setIw_advance (s.pushed_thread h d a b pc), ?_, ?_, ?_, ?_, ?_⟩
  · rw [exec_lpush]
    exact State.guardedRun_of_operandsOk hc rfl _
  · rw [State.iw_setIw]
    exact (Warp.mapThreads_proj _ _ _ Warp.withoutPushable (fun _ _ => rfl)).trans (s.pushed_rest h d a b pc hd)
  · intro l r _ hr
    rw [State.iw_setIw, Warp.advance, Warp.advanceIn, Warp.mapThreads_getHold]
    exact s.pushed_getHold h d a b pc l r hr
  · intro l r _ hr
    rw [State.iw_setIw, Warp.advance, Warp.advanceIn, Warp.mapThreads_getNear]
    exact s.pushed_getNear h d a b pc l r hr
  · intro l r _ _
    rw [State.iw_setIw, Warp.advance, Warp.advanceIn, Warp.mapThreads_nearWritten]
    exact s.pushed_nearWritten h d a b pc l r
  · intro l p hl
    rw [State.iw_setIw, Warp.advance, Warp.advanceIn, Warp.mapThreads_getPred]
    exact s.pushed_getPred h d a b pc l p hl

end Sys2Proof.Machine
end
